-- ==== Sys2Proof/Word.lean ====
section
/-! DEFINITION. The word types of the Autotuner CORE (30_encoding.md R107, 00_scope.md R11, R14). -/

namespace Sys2Proof

/-- One byte of a stored trace (30_encoding.md R107, 20_memory.md R74). -/
abbrev Byte := BitVec 8

/-- A 32-bit word: an operation word (30_encoding.md R107), an integer register of full width (R7 `REG_BITS`),
or a word of the observation port (10_state.md R38). -/
abbrev Word := BitVec 32

/-- The code of one value of the number format `FLOAT` (41_fft_peak.md R150).
For the default format it is the 32-bit pattern read as a number, so `1.0` is `0x3F800000`.
A format is an open parameter (00_scope.md R7), so no width is fixed (log 2). -/
abbrev FloatVal := Nat

end Sys2Proof
end

