-- ==== Sys2Proof/Syntax.lean ====
section
/-! DEFINITION. The 27 operations of the CORE as syntax, the agent that owns each and its class
(30_encoding.md R107 to R109, 00_scope.md R8). -/

namespace Sys2Proof

/-- One operation, one constructor per row of the operation map (30_encoding.md R109).
Only `ENV.EOC` has an operand, the 16-bit field `imm16` (R107, R108). -/
inductive Instr where
  | envReset
  | envAtick
  | envEoc (v : BitVec 16)
  | envStick
  | acqEnter
  | acqWait
  | acqStore
  | synEnter
  | synStep
  | synAdv
  | synMix
  | synOut
  | orchInit
  | orchPoll
  | orchPub
  | fftLoad
  | fftRev
  | fftStg
  | fftBfy
  | fftTwn
  | pkInit
  | pkScan
  | pkDone
  | qntStart
  | qntRed
  | qntCmp
  | qntOut
  deriving DecidableEq, Repr

/-- The four agents (00_scope.md R8). -/
inductive Agent where
  | env
  | acq
  | syn
  | fg
  deriving DecidableEq, Repr

/-- The agent whose step an operation is (30_encoding.md R109). -/
def Instr.agent : Instr → Agent
  | .envReset => .env
  | .envAtick => .env
  | .envEoc _ => .env
  | .envStick => .env
  | .acqEnter => .acq
  | .acqWait => .acq
  | .acqStore => .acq
  | .synEnter => .syn
  | .synStep => .syn
  | .synAdv => .syn
  | .synMix => .syn
  | .synOut => .syn
  | .orchInit => .fg
  | .orchPoll => .fg
  | .orchPub => .fg
  | .fftLoad => .fg
  | .fftRev => .fg
  | .fftStg => .fg
  | .fftBfy => .fg
  | .fftTwn => .fg
  | .pkInit => .fg
  | .pkScan => .fg
  | .pkDone => .fg
  | .qntStart => .fg
  | .qntRed => .fg
  | .qntCmp => .fg
  | .qntOut => .fg

/-- The class in bits 7:4 of the operation number (30_encoding.md R107). -/
inductive OpClass where
  | environment
  | acquisition
  | synthesis
  | orchestrator
  | analyzer
  | quantizer
  deriving DecidableEq, Repr

/-- The class number (30_encoding.md R107). -/
def OpClass.number : OpClass → Nat
  | .environment => 0
  | .acquisition => 1
  | .synthesis => 2
  | .orchestrator => 3
  | .analyzer => 4
  | .quantizer => 5

/-- The class of an operation (30_encoding.md R107, R109). -/
def Instr.opClass : Instr → OpClass
  | .envReset => .environment
  | .envAtick => .environment
  | .envEoc _ => .environment
  | .envStick => .environment
  | .acqEnter => .acquisition
  | .acqWait => .acquisition
  | .acqStore => .acquisition
  | .synEnter => .synthesis
  | .synStep => .synthesis
  | .synAdv => .synthesis
  | .synMix => .synthesis
  | .synOut => .synthesis
  | .orchInit => .orchestrator
  | .orchPoll => .orchestrator
  | .orchPub => .orchestrator
  | .fftLoad => .analyzer
  | .fftRev => .analyzer
  | .fftStg => .analyzer
  | .fftBfy => .analyzer
  | .fftTwn => .analyzer
  | .pkInit => .analyzer
  | .pkScan => .analyzer
  | .pkDone => .analyzer
  | .qntStart => .quantizer
  | .qntRed => .quantizer
  | .qntCmp => .quantizer
  | .qntOut => .quantizer

end Sys2Proof
end

