-- ==== Sys2Proof/WellFormed.lean ====
section
/-! DEFINITION. When an operation is well formed: the operand of `ENV.EOC` fits the converter's width
(30_encoding.md R108). -/

namespace Sys2Proof

/-- `ENV.EOC v` is admitted only if `v < 2^ADC_BITS`; no other operation has an operand (30_encoding.md R108). -/
def Instr.wellFormed (adcBits : Nat) : Instr → Bool
  | .envEoc v => decide (v.toNat < 2 ^ adcBits)
  | _ => true

end Sys2Proof
end

