-- ==== Sys2Proof/Decode.lean ====
section
/-! DEFINITION. The decoder of operation words and of a stored trace, total on any bytes, and the encoder
(30_encoding.md R107 to R112, 20_memory.md R74). -/

namespace Sys2Proof

/-- Why bytes are no operation word (30_encoding.md R110). -/
inductive DecodeError where
  /-- Fewer than the four bytes of an operation word are left. -/
  | truncated
  /-- The operation number stands in no row of the operation map. -/
  | unknownOp (op : Nat)
  /-- A bit that must be zero is set. -/
  | nonzeroField (op : Nat)
  deriving DecidableEq, Repr

/-- The operation of format `E0` with a given operation number (30_encoding.md R109). -/
def plainOp : Nat → Option Instr
  | 0x01 => some .envReset
  | 0x02 => some .envAtick
  | 0x04 => some .envStick
  | 0x10 => some .acqEnter
  | 0x11 => some .acqWait
  | 0x12 => some .acqStore
  | 0x20 => some .synEnter
  | 0x21 => some .synStep
  | 0x22 => some .synAdv
  | 0x23 => some .synMix
  | 0x24 => some .synOut
  | 0x30 => some .orchInit
  | 0x31 => some .orchPoll
  | 0x32 => some .orchPub
  | 0x40 => some .fftLoad
  | 0x41 => some .fftRev
  | 0x42 => some .fftStg
  | 0x43 => some .fftBfy
  | 0x44 => some .fftTwn
  | 0x45 => some .pkInit
  | 0x46 => some .pkScan
  | 0x47 => some .pkDone
  | 0x50 => some .qntStart
  | 0x51 => some .qntRed
  | 0x52 => some .qntCmp
  | 0x53 => some .qntOut
  | _ => none

/-- Decodes one operation word: format `EV` when `op = 0x03`, else format `E0` (30_encoding.md R107, R110). -/
def decodeWord (w : Word) : Except DecodeError Instr :=
  let op := w.toNat / 2 ^ 24
  let low := w.toNat % 2 ^ 24
  if op = 3 then
    if low < 2 ^ 16 then .ok (.envEoc (BitVec.ofNat 16 low)) else .error (.nonzeroField op)
  else
    match plainOp op with
    | some i => if low = 0 then .ok i else .error (.nonzeroField op)
    | none => .error (.unknownOp op)

/-- The word whose bytes, least significant first, are given (30_encoding.md R107, 20_memory.md R74). -/
def joinBytes (b0 b1 b2 b3 : Byte) : Word :=
  BitVec.ofNat 32 (b0.toNat + 2 ^ 8 * b1.toNat + 2 ^ 16 * b2.toNat + 2 ^ 24 * b3.toNat)

/-- The bytes of a word, least significant first (30_encoding.md R107, 20_memory.md R74). -/
def wordBytes (w : Word) : List Byte :=
  [BitVec.ofNat 8 w.toNat, BitVec.ofNat 8 (w.toNat / 2 ^ 8), BitVec.ofNat 8 (w.toNat / 2 ^ 16),
    BitVec.ofNat 8 (w.toNat / 2 ^ 24)]

/-- Decodes the first operation of a stored trace and returns the bytes after it. -/
def decode : List Byte → Except DecodeError (Instr × List Byte)
  | b0 :: b1 :: b2 :: b3 :: rest =>
    match decodeWord (joinBytes b0 b1 b2 b3) with
    | .ok i => .ok (i, rest)
    | .error e => .error e
  | _ => .error .truncated

/-- The operation number of an operation (30_encoding.md R109). -/
def opNumber : Instr → Nat
  | .envReset => 0x01
  | .envAtick => 0x02
  | .envEoc _ => 0x03
  | .envStick => 0x04
  | .acqEnter => 0x10
  | .acqWait => 0x11
  | .acqStore => 0x12
  | .synEnter => 0x20
  | .synStep => 0x21
  | .synAdv => 0x22
  | .synMix => 0x23
  | .synOut => 0x24
  | .orchInit => 0x30
  | .orchPoll => 0x31
  | .orchPub => 0x32
  | .fftLoad => 0x40
  | .fftRev => 0x41
  | .fftStg => 0x42
  | .fftBfy => 0x43
  | .fftTwn => 0x44
  | .pkInit => 0x45
  | .pkScan => 0x46
  | .pkDone => 0x47
  | .qntStart => 0x50
  | .qntRed => 0x51
  | .qntCmp => 0x52
  | .qntOut => 0x53

/-- The field `imm16`: the operand of `ENV.EOC`, zero for every other operation (30_encoding.md R107). -/
def operandField : Instr → Nat
  | .envEoc v => v.toNat
  | _ => 0

/-- The operation word of an operation (30_encoding.md R107). -/
def encodeWord (i : Instr) : Word :=
  BitVec.ofNat 32 (opNumber i * 2 ^ 24 + operandField i)

/-- The four bytes of an operation in a stored trace (30_encoding.md R107). -/
def encode (i : Instr) : List Byte :=
  wordBytes (encodeWord i)

/-- What the decoder reads from an operation whose bits, numbered as the opcode table numbers them, are `w`;
bits from `nbits` up are zero. -/
def decodeTableWord (nbits w : Nat) : Option Instr :=
  match decode (wordBytes (BitVec.ofNat 32 (w % 2 ^ nbits))) with
  | .ok (i, []) => some i
  | _ => none

end Sys2Proof
end

