-- ==== Sys2Proof/Config.lean ====
section
/-! DEFINITION. The parameters of 00_scope.md R7 as plain data, and the free values:
constants with no body, of which nothing can be proved. -/

namespace Sys2Proof

/-- How the analyzer reads the ring buffer (00_scope.md R7 `LOAD_POLICY`). -/
inductive LoadPolicy where
  | racy
  | snapshot
  deriving DecidableEq, Repr

/-- The number format of the Spectral Frame (00_scope.md R7 `FLOAT`, 41_fft_peak.md R150).
`binary32` is the default; `other k` is any other format, its arithmetic and its numbers given by the free functions
below (log 2). -/
inductive FloatFormat where
  | binary32
  | other (k : Nat)
  deriving DecidableEq, Repr

/-- The target frequency of a channel (00_scope.md R7 `CHF`).
`identity` is the default `CHF(c, f) = f`; `other k` is any other total function that is 0 at 0 (log 3). -/
inductive ChannelRule where
  | identity
  | other (k : Nat)
  deriving DecidableEq, Repr

/-- The parameters of 00_scope.md R7 marked OPEN. State carries one Config and no operation writes it (log 1). -/
structure Config where
  /-- `ADC_BITS`, 1 to 16. -/
  adcBits : Nat
  /-- `ACQ_WAIT_MAX`; `none` is `INF`. -/
  acqWaitMax : Option Nat
  /-- `LOAD_POLICY`. -/
  loadPolicy : LoadPolicy
  /-- `RING_RESET`: the slots that are not 0, by rising index. -/
  ringReset : List (Nat × BitVec 16)
  /-- `FLOAT`. -/
  float : FloatFormat
  /-- `TW[1..10]`, each `(cos, sin)`. -/
  tw : List (FloatVal × FloatVal)
  /-- `NOTE_TABLE`, row by row: entry `[o][n]` at `12 * o + n`. -/
  noteTable : List Word
  /-- `LABEL_TABLE`. -/
  labelTable : List (BitVec 16)
  /-- `WAVE_TABLE`, two's complement. -/
  waveTable : List (BitVec 16)
  /-- `NCH`. -/
  nch : Nat
  /-- `CHF`. -/
  chf : ChannelRule
  /-- `VOLUME`. -/
  volume : Nat
  /-- `OUT_SHIFT`. -/
  outShift : Nat
  deriving DecidableEq, Repr

/-- Addition of the format `other k` (41_fft_peak.md R151): free. -/
opaque Config.otherAdd (k : Nat) (a b : FloatVal) : FloatVal

/-- Subtraction of the format `other k` (41_fft_peak.md R151): free. -/
opaque Config.otherSub (k : Nat) (a b : FloatVal) : FloatVal

/-- Multiplication of the format `other k` (41_fft_peak.md R151): free. -/
opaque Config.otherMul (k : Nat) (a b : FloatVal) : FloatVal

/-- Whether a code of the format `other k` is a NaN (41_fft_peak.md R152), for the codes above those of `itof`:
free. -/
opaque Config.otherNaN (k : Nat) (c : FloatVal) : Bool

/-- The number a code of the format `other k` stands for, an infinity's code being placed in the same order
(41_fft_peak.md R152), for the codes above those of `itof`: free. -/
opaque Config.otherNumber (k : Nat) (c : FloatVal) : Rat

/-- The channel rule `other k` at a frequency that is not 0 (00_scope.md R7): free. -/
opaque Config.otherChf (k : Nat) (c : Nat) (f : Word) : Word

/-- Which NaN a binary32 operation on the codes `a`, `b` delivers (log 13): free. -/
opaque Config.freeNaN (a b : FloatVal) : Nat

/-- What `SYN_ACC` holds for a sum outside its 32 bits, which R210 admits only at `VOLUME = 0` (log 20): free. -/
opaque Config.freeSum (sum : Int) : Word

/-- Which enabled operation goes next when the trace gives none (60_exceptions.md R249, log 8): free. -/
opaque Config.freePick (draw : Nat) : Nat

/-- The sample an `ENV.EOC` carries when the trace gives none (40_acquisition.md R132 (b), log 8): free. -/
opaque Config.freeSample (draw : Nat) : Nat

/-- What the observation port returns for register `r` while it holds no value (10_state.md R51, log 7): free. -/
opaque Config.freePortWord (draw : Nat) (r : Nat) : Word

end Sys2Proof
end

