-- ==== Sys2Proof/Machine/Float.lean ====
section
/-! DEFINITION. The number format `FLOAT` (41_fft_peak.md R150 to R152): IEEE 754 binary32 on its 32-bit
patterns; of any format, what codes it has and its five functions. -/

namespace Sys2Proof

/-- The sign bit of a binary32 pattern (41_fft_peak.md R150). -/
def b32Sign (c : FloatVal) : Bool :=
  Nat.beq (c / 2 ^ 31 % 2) 1

/-- The pattern without its sign bit. -/
def b32Magnitude (c : FloatVal) : Nat :=
  c % 2 ^ 31

/-- The pattern of infinity without its sign bit: exponent field 255, fraction 0 (41_fft_peak.md R150). -/
def b32Infinity : Nat := 255 * 2 ^ 23

/-- The pattern is a NaN (41_fft_peak.md R150). -/
def b32IsNaN (c : FloatVal) : Bool :=
  Nat.blt b32Infinity (b32Magnitude c)

/-- The pattern is an infinity (41_fft_peak.md R150). -/
def b32IsInf (c : FloatVal) : Bool :=
  Nat.beq (b32Magnitude c) b32Infinity

/-- The pattern is a finite number. -/
def b32IsFinite (c : FloatVal) : Bool :=
  Nat.blt (b32Magnitude c) b32Infinity

/-- The magnitude of a finite pattern as a whole number of units `2^-149`, the smallest subnormal:
`f` for exponent field 0, `(2^23 + f) * 2^(e - 1)` for exponent field `e` (41_fft_peak.md R150). -/
def b32Units (c : FloatVal) : Nat :=
  let e := b32Magnitude c / 2 ^ 23
  let f := b32Magnitude c % 2 ^ 23
  if e = 0 then f else (2 ^ 23 + f) * 2 ^ (e - 1)

/-- The value of a finite pattern in units `2^-149`. -/
def b32Value (c : FloatVal) : Int :=
  if b32Sign c then -(b32Units c : Int) else b32Units c

/-- The pattern with a given sign and magnitude part. -/
def b32Pattern (negative : Bool) (magnitude : Nat) : FloatVal :=
  if negative then 2 ^ 31 + magnitude else magnitude

/-- How many low bits of `mag` a result drops: all but 24 significant bits, and never fewer than `shift`,
the bits below the unit `2^-149`. -/
def b32Drop (mag shift : Nat) : Nat :=
  max (Nat.log2 mag + 1 - 24) shift

/-- `mag` divided by `2^drop`, to nearest, ties to even (41_fft_peak.md R151). -/
def roundEven (mag drop : Nat) : Nat :=
  let q := mag / 2 ^ drop
  let r := mag % 2 ^ drop
  if 2 ^ drop < 2 * r || (Nat.beq (2 * r) (2 ^ drop) && Nat.beq (q % 2) 1) then q + 1 else q

/-- The magnitude part nearest to `mag` units `2^(-149 - shift)`, rounded once; infinity where it overflows
(41_fft_peak.md R151, log 14). -/
def b32RoundMagnitude (mag shift : Nat) : Nat :=
  min ((b32Drop mag shift - shift) * 2 ^ 23 + roundEven mag (b32Drop mag shift)) b32Infinity

/-- A quiet NaN; which one is free (log 13). -/
def b32NaN (a b : FloatVal) : FloatVal :=
  0x7FC00000 + Config.freeNaN a b % 2 ^ 22

/-- The pattern with its sign inverted. -/
def b32Negate (c : FloatVal) : FloatVal :=
  b32Pattern (!b32Sign c) (b32Magnitude c)

/-- The exact sum of two finite patterns, rounded once; an exact zero sum is `-0.0` only if both are negative
(41_fft_peak.md R151). -/
def b32AddFinite (a b : FloatVal) : FloatVal :=
  let sum := b32Value a + b32Value b
  if sum = 0 then b32Pattern (b32Sign a && b32Sign b) 0
  else b32Pattern (decide (sum < 0)) (b32RoundMagnitude sum.natAbs 0)

/-- `fadd` of binary32 (41_fft_peak.md R151; infinities as IEEE 754, log 14). -/
def b32Add (a b : FloatVal) : FloatVal :=
  if b32IsNaN a || b32IsNaN b then b32NaN a b
  else if b32IsInf a then
    if b32IsInf b && (b32Sign a != b32Sign b) then b32NaN a b else b32Pattern (b32Sign a) b32Infinity
  else if b32IsInf b then b32Pattern (b32Sign b) b32Infinity
  else b32AddFinite a b

/-- `fsub` of binary32: `a + (-b)` (41_fft_peak.md R151). -/
def b32Sub (a b : FloatVal) : FloatVal :=
  if b32IsNaN a || b32IsNaN b then b32NaN a b else b32Add a (b32Negate b)

/-- `fmul` of binary32 (41_fft_peak.md R151; infinities as IEEE 754, log 14). -/
def b32Mul (a b : FloatVal) : FloatVal :=
  if b32IsNaN a || b32IsNaN b then b32NaN a b
  else if b32IsInf a || b32IsInf b then
    if Nat.beq (b32Magnitude a) 0 || Nat.beq (b32Magnitude b) 0 then b32NaN a b
    else b32Pattern (b32Sign a != b32Sign b) b32Infinity
  else b32Pattern (b32Sign a != b32Sign b) (b32RoundMagnitude (b32Units a * b32Units b) 149)

/-- Patterns in the order of the numbers they stand for; both zeros at 0. -/
def b32Order (c : FloatVal) : Int :=
  if b32Sign c then -(b32Magnitude c : Int) else b32Magnitude c

/-- `fgt` of binary32 (41_fft_peak.md R152). -/
def b32Gt (a b : FloatVal) : Bool :=
  !b32IsNaN a && !b32IsNaN b && decide (b32Order b < b32Order a)

/-- `itof` of binary32 (41_fft_peak.md R152). -/
def b32OfNat (v : Nat) : FloatVal :=
  b32RoundMagnitude (v * 2 ^ 149) 0

/-- The code of another format is a NaN (41_fft_peak.md R152). The codes up to 65535 are the integers `itof` gives, so
none of them is (log 2). -/
def otherIsNaN (k : Nat) (c : FloatVal) : Bool :=
  !Nat.ble c 65535 && Config.otherNaN k c

/-- The number a code of another format stands for: a code up to 65535 is that integer, since `itof` is exact
(41_fft_peak.md R152, log 2). -/
def otherValue (k : Nat) (c : FloatVal) : Rat :=
  if c ≤ 65535 then (c : Rat) else Config.otherNumber k c

/-- `fgt` of another format: neither is a NaN and the first number is greater (41_fft_peak.md R152). -/
def otherGt (k : Nat) (a b : FloatVal) : Bool :=
  !otherIsNaN k a && !otherIsNaN k b && decide (otherValue k b < otherValue k a)

/-- The code stands for a value of the format: for binary32 it is a 32-bit pattern (41_fft_peak.md R150); another
format's codes are its own (log 2). -/
def FloatFormat.isValue (f : FloatFormat) (c : FloatVal) : Bool :=
  match f with
  | .binary32 => Nat.blt c (2 ^ 32)
  | .other _ => true

/-- `fadd` (00_scope.md R14). -/
def FloatFormat.add : FloatFormat → FloatVal → FloatVal → FloatVal
  | .binary32 => b32Add
  | .other k => Config.otherAdd k

/-- `fsub` (00_scope.md R14). -/
def FloatFormat.sub : FloatFormat → FloatVal → FloatVal → FloatVal
  | .binary32 => b32Sub
  | .other k => Config.otherSub k

/-- `fmul` (00_scope.md R14). -/
def FloatFormat.mul : FloatFormat → FloatVal → FloatVal → FloatVal
  | .binary32 => b32Mul
  | .other k => Config.otherMul k

/-- `fgt` (00_scope.md R14). -/
def FloatFormat.gt : FloatFormat → FloatVal → FloatVal → Bool
  | .binary32 => b32Gt
  | .other k => otherGt k

/-- `itof` (00_scope.md R14); in another format the code of the integer `v` is `v` (log 2). -/
def FloatFormat.ofNat : FloatFormat → Nat → FloatVal
  | .binary32 => b32OfNat
  | .other _ => id

/-- `+0.0` (00_scope.md R14). -/
def FloatFormat.zero (f : FloatFormat) : FloatVal :=
  f.ofNat 0

/-- `1.0` (41_fft_peak.md R150). -/
def FloatFormat.one (f : FloatFormat) : FloatVal :=
  f.ofNat 1

end Sys2Proof
end

