-- ==== Sys2Proof/Machine/Memory.lean ====
section
/-! DEFINITION. An element-addressed memory (20_memory.md R70, R71): a list of cells, element index and value,
in one canonical form, and the operations that keep it. What an unlisted element reads as is given by
`initial`: `some v` where the reset contents are known, `none` where it holds no value (10_state.md R50, R51). -/

namespace Sys2Proof

/-- The cells of a memory, by strictly rising element index (log 4). -/
abbrev Memory (α : Type) := List (Nat × α)

variable {α : Type}

/-- The cell listed for an index. -/
def Memory.lookup : Memory α → Nat → Option α
  | [], _ => none
  | (j, v) :: m, i => if j = i then some v else Memory.lookup m i

/-- `MemRead`: the element's value, or none where it holds no value (20_memory.md R71, 10_state.md R51). -/
def Memory.read (initial : Nat → Option α) (m : Memory α) (i : Nat) : Option α :=
  match Memory.lookup m i with
  | some v => some v
  | none => initial i

/-- Lists a value for an index. -/
def Memory.insert : Memory α → Nat → α → Memory α
  | [], i, v => [(i, v)]
  | (j, w) :: m, i, v =>
    if i < j then (i, v) :: (j, w) :: m
    else if i = j then (i, v) :: m
    else (j, w) :: Memory.insert m i v

/-- Unlists an index. -/
def Memory.erase : Memory α → Nat → Memory α
  | [], _ => []
  | (j, w) :: m, i => if j = i then m else (j, w) :: Memory.erase m i

/-- `MemWrite` (20_memory.md R71): writing what an unlisted element reads as unlists it. -/
def Memory.write [DecidableEq α] (initial : Nat → Option α) (m : Memory α) (i : Nat) (v : α) : Memory α :=
  if initial i = some v then Memory.erase m i else Memory.insert m i v

/-- A memory whose elements from index `i` on are the values of a list. -/
def Memory.ofListFrom : Nat → List α → Memory α
  | _, [] => []
  | i, v :: vs => (i, v) :: Memory.ofListFrom (i + 1) vs

/-- A memory whose elements from 0 on are the values of a list. -/
def Memory.ofList (vs : List α) : Memory α :=
  Memory.ofListFrom 0 vs

/-- A memory whose `n` elements from index `i` on are the values of a function. -/
def Memory.tabulateFrom (f : Nat → α) : (n i : Nat) → Memory α
  | 0, _ => []
  | n + 1, i => (i, f i) :: Memory.tabulateFrom f n (i + 1)

/-- A memory whose first `n` elements are the values of a function. -/
def Memory.tabulate (n : Nat) (f : Nat → α) : Memory α :=
  Memory.tabulateFrom f n 0

/-- The cells from a lower bound on: rising, below the size, none equal to what it would read as unlisted. -/
def Memory.wfFrom [DecidableEq α] (size : Nat) (initial : Nat → Option α) : Nat → Memory α → Bool
  | _, [] => true
  | lo, (j, v) :: m =>
    Nat.ble lo j && Nat.blt j size && decide (initial j ≠ some v) && Memory.wfFrom size initial (j + 1) m

/-- The canonical form of a memory of `size` elements. -/
def Memory.wf [DecidableEq α] (size : Nat) (initial : Nat → Option α) (m : Memory α) : Bool :=
  Memory.wfFrom size initial 0 m

/-- Every element from 0 to `n - 1` holds a value, for a memory with no reset contents. -/
def Memory.filled (n : Nat) (m : Memory α) : Bool :=
  (List.range n).all (fun i => (Memory.lookup m i).isSome)

end Sys2Proof
end

