-- ==== Sys2Proof/Machine/Tables.lean ====
section
/-! DEFINITION. The constants of 00_scope.md R6, the default tables of 10_state.md R42, R44, R45, R47,
the default configuration of 00_scope.md R7, and the constraints a configuration must meet (R43, R46, R210). -/

namespace Sys2Proof

/-- `CAP` and `N` (00_scope.md R6). -/
def ringSize : Nat := 1024

/-- `FULL_IDX`, the write index that triggers an analysis (00_scope.md R6). -/
def fullIndex : Nat := 1023

/-- `N_OCT` (00_scope.md R6). -/
def octaveCount : Nat := 9

/-- `N_NOTE` (00_scope.md R6). -/
def noteCount : Nat := 12

/-- `Q_THRESH`, in units of 10^-4 Hz (00_scope.md R6). -/
def octaveThreshold : Nat := 317900

/-- `WT_LEN` (00_scope.md R6). -/
def waveLength : Nat := 1000

/-- `PH_MOD = WT_LEN * 2^16` (00_scope.md R6). -/
def phaseModulus : Nat := 65536000

/-- `DAC_MID` (00_scope.md R7). -/
def dacMidpoint : Nat := 2048

/-- Row `o` of the default `NOTE_TABLE` (10_state.md R42), in units of 10^-4 Hz. -/
def noteRow : Nat → List Nat
  | 0 => [163516, 173239, 183540, 194454, 206017, 218268, 231247, 244997, 259565, 275000, 291352, 308677]
  | 1 => [327032, 346478, 367081, 388909, 412034, 436535, 462493, 489994, 519131, 550000, 582705, 617354]
  | 2 => [654064, 692957, 734162, 777817, 824069, 873071, 924986, 979989, 1038262, 1100000, 1165409, 1234708]
  | 3 => [1308128, 1385913, 1468324, 1555635, 1648138, 1746141, 1849972, 1959977, 2076523, 2200000, 2330819, 2469417]
  | 4 => [2616256, 2771826, 2936648, 3111270, 3296276, 3492282, 3699944, 3919954, 4153047, 4400000, 4661638, 4938833]
  | 5 => [5232511, 5543653, 5873295, 6222540, 6592551, 6984565, 7399888, 7839909, 8306094, 8800000, 9323275, 9877666]
  | 6 => [10465023, 11087305, 11746591, 12445079, 13185102, 13969129, 14799777, 15679817, 16612188, 17600000, 18646550, 19755332]
  | 7 => [20930045, 22174610, 23493181, 24890159, 26370205, 27938259, 29599554, 31359635, 33224376, 35200000, 37293101, 39510664]
  | 8 => [41860090, 44349221, 46986363, 49780317, 52740409, 55876517, 59199108, 62719270, 66448752, 70400000, 74586202, 79021328]
  | _ => []

/-- The default `NOTE_TABLE`, row by row (10_state.md R42). -/
def defaultNoteTable : List Word :=
  ((List.range 9).flatMap noteRow).map (BitVec.ofNat 32)

/-- The default `LABEL_TABLE` (10_state.md R44). -/
def defaultLabelTable : List (BitVec 16) :=
  [0x2043, 0x2343, 0x2044, 0x2344, 0x2045, 0x2046, 0x2346, 0x2047, 0x2347, 0x2041, 0x2341, 0x2042]

/-- Entries 0 to 99 of the default `WAVE_TABLE` (10_state.md R45). -/
def waveQuarterA : List Nat :=
  [0, 206, 412, 618, 823, 1029, 1235, 1441, 1646, 1852, 2057, 2263, 2468, 2673, 2879, 3084, 3289, 3493, 3698, 3902,
   4107, 4311, 4515, 4719, 4922, 5126, 5329, 5532, 5735, 5938, 6140, 6342, 6544, 6746, 6947, 7148, 7349, 7549, 7749, 7949,
   8149, 8348, 8547, 8746, 8944, 9142, 9339, 9536, 9733, 9930, 10126, 10321, 10516, 10711, 10905, 11099, 11293, 11486, 11679, 11871,
   12062, 12254, 12444, 12634, 12824, 13013, 13202, 13390, 13578, 13765, 13952, 14138, 14323, 14508, 14692, 14876, 15059, 15242, 15424, 15605,
   15786, 15966, 16145, 16324, 16502, 16680, 16857, 17033, 17208, 17383, 17557, 17731, 17904, 18076, 18247, 18418, 18588, 18757, 18925, 19093]

/-- Entries 100 to 199 of the default `WAVE_TABLE` (10_state.md R45). -/
def waveQuarterB : List Nat :=
  [19260, 19426, 19592, 19756, 19920, 20083, 20245, 20407, 20568, 20727, 20886, 21045, 21202, 21359, 21514, 21669, 21823, 21976, 22129, 22280,
   22431, 22580, 22729, 22877, 23024, 23170, 23315, 23459, 23602, 23745, 23886, 24027, 24166, 24305, 24442, 24579, 24715, 24849, 24983, 25116,
   25247, 25378, 25508, 25637, 25764, 25891, 26017, 26141, 26265, 26388, 26509, 26630, 26749, 26867, 26985, 27101, 27216, 27330, 27443, 27555,
   27666, 27776, 27885, 27992, 28099, 28204, 28308, 28411, 28513, 28614, 28714, 28813, 28910, 29006, 29102, 29196, 29289, 29380, 29471, 29560,
   29648, 29736, 29821, 29906, 29990, 30072, 30153, 30233, 30312, 30390, 30466, 30541, 30615, 30688, 30759, 30830, 30899, 30967, 31034, 31099]

/-- Entries 200 to 250 of the default `WAVE_TABLE` (10_state.md R45). -/
def waveQuarterC : List Nat :=
  [31163, 31226, 31288, 31349, 31408, 31466, 31523, 31578, 31633, 31686, 31738, 31788, 31837, 31886, 31932, 31978, 32022, 32065, 32107, 32147,
   32187, 32225, 32261, 32297, 32331, 32364, 32395, 32425, 32454, 32482, 32509, 32534, 32558, 32580, 32602, 32622, 32640, 32658, 32674, 32689,
   32702, 32715, 32726, 32735, 32744, 32751, 32757, 32761, 32764, 32766, 32767]

/-- The first quarter of the default `WAVE_TABLE`, entries 0 to 250 (10_state.md R45). -/
def waveQuarter : List Nat :=
  waveQuarterA ++ (waveQuarterB ++ waveQuarterC)

/-- The default `WAVE_TABLE`: the first quarter, its mirror image `WAVE[500 - i] = WAVE[i]`, and the negated
half `WAVE[500 + i] = -WAVE[i]` (10_state.md R45). -/
def defaultWaveTable : List (BitVec 16) :=
  let half := waveQuarter ++ (waveQuarter.take 250).reverse.take 249
  half.map (BitVec.ofNat 16) ++ half.map (fun v => BitVec.ofInt 16 (-(v : Int)))

/-- The default `TW[1..10]` (10_state.md R47). -/
def defaultTwiddles : List (FloatVal × FloatVal) :=
  [(0xBF800000, 0x00000000),
   (0x00000000, 0xBF800000),
   (0x3F3504F3, 0xBF3504F3),
   (0x3F6C835E, 0xBEC3EF15),
   (0x3F7B14BE, 0xBE47C5C2),
   (0x3F7EC46D, 0xBDC8BD36),
   (0x3F7FB10F, 0xBD48FB30),
   (0x3F7FEC43, 0xBCC90AB0),
   (0x3F7FFB11, 0xBC490E90),
   (0x3F7FFEC4, 0xBBC90F88)]

/-- The default configuration (00_scope.md R7). -/
def Config.standard : Config where
  adcBits := 12
  acqWaitMax := none
  loadPolicy := .racy
  ringReset := []
  float := .binary32
  tw := defaultTwiddles
  noteTable := defaultNoteTable
  labelTable := defaultLabelTable
  waveTable := defaultWaveTable
  nch := 1
  chf := .identity
  volume := 2048
  outShift := 15

/-- `RING_RESET[i]`: a slot the parameter does not list is 0 (00_scope.md R7, log 1). -/
def Config.ringResetAt (c : Config) (i : Nat) : Option (BitVec 16) :=
  match Memory.lookup c.ringReset i with
  | some v => some v
  | none => some 0

/-- `TW[s]` for a stage number `s` in 1 to 10 (10_state.md R47). -/
def Config.twiddle (c : Config) (s : Nat) : Option (FloatVal × FloatVal) :=
  if s = 0 then none else c.tw[s - 1]?

/-- `CHF(c, f)`, 0 at `f = 0` whatever the rule (00_scope.md R7). -/
def Config.channelFrequency (cfg : Config) (c : Nat) (f : Word) : Word :=
  match cfg.chf with
  | .identity => f
  | .other k => if f = 0 then 0 else Config.otherChf k c f

/-- The absolute difference of two unsigned values (00_scope.md R10, 42_quantizer.md R183 (b)). -/
def absDiff (a b : Nat) : Nat :=
  if b ≤ a then a - b else b - a

/-- The search of 42_quantizer.md R183 over the rest of a row: `n` is the index of the row's first entry,
`best` and `diff` the nearest so far; a later entry wins only if strictly nearer. -/
def nearestFrom (x : Nat) : List Nat → (n best diff : Nat) → Nat × Nat
  | [], _, best, diff => (best, diff)
  | v :: row, n, best, diff =>
    if absDiff x v < diff then nearestFrom x row (n + 1) n (absDiff x v) else nearestFrom x row (n + 1) best diff

/-- The index of the first entry of a row nearest to `x`, and its distance (42_quantizer.md R184). -/
def nearestNote (row : List Nat) (x : Nat) : Nat × Nat :=
  match row with
  | [] => (0, 0)
  | v :: rest => nearestFrom x rest 1 0 (absDiff x v)

/-- 10_state.md R43 (a), (b), (c) for the entries from index `k` on, against row 0. -/
def noteEntriesValid (row0 : List Nat) : List Nat → Nat → Bool
  | [], _ => true
  | v :: rest, k =>
    Nat.ble (v / 2 ^ (k / 12)) octaveThreshold &&
      (Nat.beq (k / 12) 0 || Nat.blt octaveThreshold (v / 2 ^ (k / 12 - 1))) &&
      Nat.beq (nearestNote row0 (v / 2 ^ (k / 12))).1 (k % 12) &&
      noteEntriesValid row0 rest (k + 1)

/-- Each entry is below the next. -/
def strictlyRising : List Nat → Bool
  | a :: b :: rest => Nat.blt a b && strictlyRising (b :: rest)
  | _ => true

/-- The constraints of 10_state.md R43 on a `NOTE_TABLE`. -/
def noteTableValid (t : List Word) : Bool :=
  let v := t.map BitVec.toNat
  Nat.beq v.length 108 && strictlyRising (v.take 12) && noteEntriesValid (v.take 12) v 0

/-- The constraints of 10_state.md R46 on a `WAVE_TABLE`: 1000 entries, none of them -32768. -/
def waveTableValid (t : List (BitVec 16)) : Bool :=
  Nat.beq t.length 1000 && t.all (fun v => !Nat.beq v.toNat 0x8000)

/-- The constraint of 43_synthesis.md R210, with `M = NCH * 32767`. -/
def mixValid (nch volume outShift : Nat) : Bool :=
  decide (outShift ≤ 31) && decide (nch * 32767 * volume < 2 ^ 31) &&
    decide (((nch * 32767 * volume : Nat) : Int) / 2 ^ outShift ≤ 2047) &&
    decide (-2048 ≤ -((nch * 32767 * volume : Nat) : Int) / 2 ^ outShift)

/-- `TW` is ten pairs of values of the format (00_scope.md R7, 10_state.md R47). -/
def twiddlesValid (f : FloatFormat) (t : List (FloatVal × FloatVal)) : Bool :=
  Nat.beq t.length 10 && t.all fun p => f.isValue p.1 && f.isValue p.2

/-- What a configuration of the CORE must meet: the ranges of 00_scope.md R7 and the constraints of R43, R46, R210. -/
def Config.valid (c : Config) : Bool :=
  decide (1 ≤ c.adcBits) && decide (c.adcBits ≤ 16) && (c.acqWaitMax.all (fun m => decide (1 ≤ m))) &&
    Memory.wf ringSize (fun _ => some 0) c.ringReset && twiddlesValid c.float c.tw &&
    Nat.beq c.labelTable.length 12 && decide (1 ≤ c.nch) && mixValid c.nch c.volume c.outShift &&
    noteTableValid c.noteTable && waveTableValid c.waveTable

/-- The default configuration is one of the CORE. -/
theorem Config.standard_valid : Config.standard.valid = true := by decide +kernel

end Sys2Proof
end

