-- ==== Sys2Proof/Machine/State.lean ====
section
/-! DEFINITION. The state of the CORE (10_state.md), its value after reset (R50), and the reasons a step can
stop. -/

namespace Sys2Proof.Machine

/-- The phase of the foreground agent, the value of `SEQ` (10_state.md R21, R22).
Code 15 is not a state of the CORE, so no phase stands for it (log 11). -/
inductive Phase where
  | boot
  | fill
  | load
  | rev
  | stg
  | bfy
  | twn
  | pki
  | pks
  | pkd
  | qst
  | qrd
  | qcm
  | qout
  | pub
  deriving DecidableEq, Repr

/-- The sub-step of a synthesis activation, the value of `SYN_PH` (10_state.md R35).
Values 5 to 7 are never written, so no sub-step stands for them (log 11). -/
inductive SynPhase where
  /-- 0. -/
  | idle
  /-- 1, before `SYN.STEP`. -/
  | step
  /-- 2, before `SYN.ADV`. -/
  | adv
  /-- 3, before `SYN.MIX`. -/
  | mix
  /-- 4, before `SYN.OUT`. -/
  | out
  deriving DecidableEq, Repr

/-- The Oscillator State of one channel (10_state.md R34). -/
structure Oscillator where
  /-- `STEP[c]`. -/
  inc : Word
  /-- `PHASE[c]`. -/
  acc : Word
  deriving DecidableEq, Repr

/-- Which of the port's registers with no reset value were written since reset (10_state.md R51, log 7). -/
structure Valued where
  adcDr : Bool
  qIn : Bool
  synAcc : Bool
  dacOut : Bool
  deriving DecidableEq, Repr

/-- A configuration that meets the constraints of 00_scope.md R7, 10_state.md R43, R46 and 43_synthesis.md R210;
any other is no configuration of the CORE (log 10). -/
abbrev ValidConfig := { c : Config // c.valid = true }

/-- The state of the CORE: the registers of 10_state.md R20, the memories of R39 to R45, and, last, the model's
own fields. -/
structure State where
  /-- The parameters of 00_scope.md R7 (log 1). -/
  cfg : ValidConfig
  /-- `SEQ` (R21). -/
  seq : Phase
  /-- `WR_IDX` (R24). -/
  wrIdx : BitVec 10
  /-- `ADC_DR`, its `ADC_BITS` bits zero-extended to 16 (R25). -/
  adcDr : BitVec 16
  /-- `ADC_EOC` (R25). -/
  adcEoc : Bool
  /-- `ACQ_PEND` (R26). -/
  acqPend : Bool
  /-- `ACQ_ACT` (R26). -/
  acqAct : Bool
  /-- `ACQ_WCNT` (R26). -/
  acqWcnt : Word
  /-- `FI` (R27). -/
  fi : BitVec 11
  /-- `FJ` (R27). -/
  fj : BitVec 10
  /-- `FSTG` (R27). -/
  fstg : BitVec 4
  /-- `FHALF` (R27). -/
  fhalf : BitVec 10
  /-- `FGRP` (R27). -/
  fgrp : BitVec 11
  /-- `W_RE` (R28). -/
  wRe : FloatVal
  /-- `W_IM` (R28). -/
  wIm : FloatVal
  /-- `C_RE` (R28). -/
  cRe : FloatVal
  /-- `C_IM` (R28). -/
  cIm : FloatVal
  /-- `PK_K` (R29). -/
  pkK : BitVec 10
  /-- `PK_BIN` (R29). -/
  pkBin : BitVec 9
  /-- `PK_MAG` (R29). -/
  pkMag : FloatVal
  /-- `DOM_BIN` (R30). -/
  domBin : BitVec 9
  /-- `DOM_FREQ_E4` (R30). -/
  domFreqE4 : Word
  /-- `Q_IN` (R31). -/
  qIn : Word
  /-- `Q_F` (R31). -/
  qF : Word
  /-- `Q_OCT` (R31). -/
  qOct : BitVec 6
  /-- `Q_N` (R31). -/
  qN : BitVec 4
  /-- `Q_BEST` (R31). -/
  qBest : BitVec 4
  /-- `Q_BDIFF` (R31). -/
  qBdiff : Word
  /-- `Q_LABEL` (R32). -/
  qLabel : BitVec 16
  /-- `Q_FREQ` (R32). -/
  qFreq : Word
  /-- `TUNE_LABEL` (R33). -/
  tuneLabel : BitVec 16
  /-- `TUNE_FREQ` (R33). -/
  tuneFreq : Word
  /-- `STEP[c]`, `PHASE[c]` for `c` in `0 .. NCH-1` (R34). -/
  osc : List Oscillator
  /-- `SYN_PEND` (R35). -/
  synPend : Bool
  /-- `SYN_ACT` (R35). -/
  synAct : Bool
  /-- `SYN_PH` (R35). -/
  synPh : SynPhase
  /-- `SYN_ACC`, two's complement (R35). -/
  synAcc : Word
  /-- `DAC_OUT` (R36). -/
  dacOut : BitVec 12
  /-- `STATUS` (R37). -/
  status : BitVec 4
  /-- `SAMP` (R39). -/
  samp : Memory (BitVec 16)
  /-- `SNAP` (R40). -/
  snap : Memory (BitVec 16)
  /-- `RE` (R41). -/
  re : Memory FloatVal
  /-- `IM` (R41). -/
  im : Memory FloatVal
  /-- `NOTE`, entry `[o][n]` at `12 * o + n` (R42). -/
  note : Memory Word
  /-- `LABEL` (R44). -/
  label : Memory (BitVec 16)
  /-- `WAVE`, two's complement (R45). -/
  wave : Memory (BitVec 16)
  /-- Which port registers with no reset value were written since reset (log 7). -/
  valued : Valued
  /-- Every value `SYN.OUT` wrote since reset, newest first (20_memory.md R77, log 15). -/
  dacStream : List (BitVec 12)
  /-- The bytes of the trace not yet taken (30_encoding.md R106, R107, log 8). -/
  trace : List Byte
  /-- The counter the free values are applied to (log 8). -/
  draws : Nat
  deriving DecidableEq, Repr

/-- The state after `ENV.RESET` under a configuration (10_state.md R50); the registers R50 calls unspecified
hold the values log 6 names. -/
def State.resetWith (c : ValidConfig) : State where
  cfg := c
  seq := .boot
  wrIdx := 0
  adcDr := 0
  adcEoc := false
  acqPend := false
  acqAct := false
  acqWcnt := 0
  fi := 0
  fj := 0
  fstg := 1
  fhalf := 1
  fgrp := 0
  wRe := 0
  wIm := 0
  cRe := 0
  cIm := 0
  pkK := 2
  pkBin := 1
  pkMag := 0
  domBin := 0
  domFreqE4 := 0
  qIn := 0
  qF := 0
  qOct := 0
  qN := 1
  qBest := 0
  qBdiff := 0
  qLabel := 0
  qFreq := 0
  tuneLabel := 0x2020
  tuneFreq := 0
  osc := List.replicate c.val.nch { inc := 0, acc := 0 }
  synPend := false
  synAct := false
  synPh := .idle
  synAcc := 0
  dacOut := 0
  status := 0
  samp := []
  snap := []
  re := []
  im := []
  note := []
  label := []
  wave := []
  valued := { adcDr := false, qIn := false, synAcc := false, dacOut := false }
  dacStream := []
  trace := []
  draws := 0

/-- The machine right after reset, in the default configuration (10_state.md R50, 70_reset_and_hazards.md R281). -/
def State.reset : State :=
  State.resetWith ⟨Config.standard, Config.standard_valid⟩

/-- The seven memories (20_memory.md R70). -/
inductive MemId where
  | samp
  | snap
  | re
  | im
  | note
  | label
  | wave
  deriving DecidableEq, Repr

/-- Why a step stops the machine. None of these is reached by an execution that starts from reset
(20_memory.md R73, 10_state.md R51); each is safe. -/
inductive Fault where
  /-- Raised by an operation that reads an element no operation has written (10_state.md R51). Safe. -/
  | noValue (mem : MemId) (idx : Nat)
  /-- Raised by an operation that forms an index outside its memory (20_memory.md R73). Safe. -/
  | noElement (mem : MemId) (idx : Nat)
  /-- Raised by `FFT.STG` when `FSTG` is outside 1 to 10, where `TW` has no entry (10_state.md R47). Safe. -/
  | noTwiddle (stage : Nat)
  /-- Raised by `FFT.REV` when the walk's loop would not end, `FJ = 1023` (41_fft_peak.md R157 (c)). Safe. -/
  | walkDoesNotEnd
  deriving DecidableEq, Repr

/-- Why a step has no meaning. A refused word is no part of any execution and leaves no trace in the state
(60_exceptions.md R242). -/
inductive Refusal where
  /-- Raised by an arm of `exec` for an instruction without a meaning; none is left. Safe. -/
  | notModelled (mnemonic : String)
  /-- Raised by `step` on bytes that are no operation word (30_encoding.md R110). Safe. -/
  | illegalWord (why : DecodeError)
  /-- Raised by every operation whose guard, or the scheduler, does not admit it here (30_encoding.md R111,
  60_exceptions.md R247). Safe. -/
  | notEnabled (op : Instr)
  deriving DecidableEq, Repr

/-- What an operation answers. -/
abbrev Result := Host.Outcome State Fault Refusal

end Sys2Proof.Machine
end

