-- ==== Sys2Proof/Machine/Flags.lean ====
section
/-! DEFINITION. The fault bits of STATUS and raising one (10_state.md R37, 60_exceptions.md R240), the handler
latches (60_exceptions.md R243), and the codes of `SEQ` and `SYN_PH` (10_state.md R22, R35). -/

namespace Sys2Proof.Machine

/-- The four faults of the CORE (60_exceptions.md R240). -/
inductive FaultCode where
  | acqTo
  | acqOvr
  | synOvr
  | qRange
  deriving DecidableEq, Repr

/-- The cause code: the bit number in STATUS (60_exceptions.md R240). -/
def FaultCode.number : FaultCode → Nat
  | .acqTo => 0
  | .acqOvr => 1
  | .synOvr => 2
  | .qRange => 3

/-- STATUS with one more bit set (60_exceptions.md R240). -/
def raisedStatus (status : BitVec 4) (x : FaultCode) : BitVec 4 :=
  status ||| (1#4 <<< x.number)

/-- `raise X`: sets the sticky bit `X` of STATUS and does nothing else (60_exceptions.md R240). -/
def State.raise (s : State) (x : FaultCode) : State :=
  { s with status := raisedStatus s.status x }

/-- A tick of a handler is pending or its activation is under way, so the foreground may not step
(60_exceptions.md R247). -/
def State.handlerBusy (s : State) : Bool :=
  s.acqPend || s.acqAct || s.synPend || s.synAct

/-- The code of a phase (10_state.md R22). -/
def Phase.code : Phase → BitVec 4
  | .boot => 0
  | .fill => 1
  | .load => 2
  | .rev => 3
  | .stg => 4
  | .bfy => 5
  | .twn => 6
  | .pki => 7
  | .pks => 8
  | .pkd => 9
  | .qst => 10
  | .qrd => 11
  | .qcm => 12
  | .qout => 13
  | .pub => 14

/-- The code of a synthesis sub-step (10_state.md R35). -/
def SynPhase.code : SynPhase → BitVec 3
  | .idle => 0
  | .step => 1
  | .adv => 2
  | .mix => 3
  | .out => 4

/-- The port's `IRQ` register (10_state.md R38). DESIGN CHOICE (log 21): R48 says `ADC_DR` and `ACQ_WCNT` are
exposed in `IRQ` too, for which R38's table has no bits; the table is followed. -/
def State.irq (s : State) : BitVec 8 :=
  s.synPh.code ++ BitVec.ofBool s.adcEoc ++ BitVec.ofBool s.synAct ++ BitVec.ofBool s.synPend ++
    BitVec.ofBool s.acqAct ++ BitVec.ofBool s.acqPend

end Sys2Proof.Machine
end

