-- ==== Sys2Proof/Machine/Operands.lean ====
section
/-! DEFINITION. The implicit operands of the operations: element indices formed from registers
(20_memory.md R87), the values computed from them, and the scalings of 30_encoding.md R105. -/

namespace Sys2Proof.Machine

/-- The number format in use. -/
abbrev State.fmt (s : State) : FloatFormat := s.cfg.val.float

/-- The index of a butterfly's upper element, `a = FGRP + FJ` (41_fft_peak.md R160). -/
def State.bfyUpper (s : State) : Nat :=
  s.fgrp.toNat + s.fj.toNat

/-- The index of a butterfly's lower element, `b = a + FHALF` (41_fft_peak.md R160). -/
def State.bfyLower (s : State) : Nat :=
  s.bfyUpper + s.fhalf.toNat

/-- The base of the next butterfly group, `FGRP + 2 * FHALF` (41_fft_peak.md R160). -/
def State.bfyNextGroup (s : State) : Nat :=
  s.fgrp.toNat + 2 * s.fhalf.toNat

/-- The real part of a complex product, `fsub(fmul(ar, br), fmul(ai, bi))` (41_fft_peak.md R160, R161). -/
def cmulRe (f : FloatFormat) (ar ai br bi : FloatVal) : FloatVal :=
  f.sub (f.mul ar br) (f.mul ai bi)

/-- The imaginary part of a complex product, `fadd(fmul(ar, bi), fmul(ai, br))` (41_fft_peak.md R160, R161). -/
def cmulIm (f : FloatFormat) (ar ai br bi : FloatVal) : FloatVal :=
  f.add (f.mul ar bi) (f.mul ai br)

/-- The squared magnitude of a bin (41_fft_peak.md R164). -/
def mag2 (f : FloatFormat) (re im : FloatVal) : FloatVal :=
  f.add (f.mul re re) (f.mul im im)

/-- The loop of the butterfly index walk over the remaining values of its mask; none when the masks run out,
where the loop would not end (41_fft_peak.md R157). -/
def walkLoop : List Nat → Nat → Option Nat
  | [], _ => none
  | k :: masks, j => if k ≤ j then walkLoop masks (j - k) else some (j + k)

/-- The next value of the reversed-index counter (41_fft_peak.md R157). -/
def walkNext (j : Nat) : Option Nat :=
  walkLoop [512, 256, 128, 64, 32, 16, 8, 4, 2, 1] j

/-- Half the group size of stage `s`, `2^(s - 1)` (41_fft_peak.md R159). -/
def halfGroup (s : Nat) : Nat :=
  2 ^ (s - 1)

/-- A bin's frequency in units of 10^-4 Hz (30_encoding.md R105 (a), 41_fft_peak.md R166). -/
def binFrequency (bin : Nat) : Nat :=
  bin * 234375

/-- The phase step of a frequency in units of 10^-4 Hz (30_encoding.md R105 (b), 43_synthesis.md R204). -/
def phaseStep (f : Nat) : Nat :=
  f * 1024 / 3125

/-- The phase after an advance, by true remainder (43_synthesis.md R205). -/
def advancedPhase (o : Oscillator) : Nat :=
  (o.acc.toNat + o.inc.toNat) % phaseModulus

/-- The wavetable index: the integer part of the phase (43_synthesis.md R206, 30_encoding.md R102). -/
def waveIndex (o : Oscillator) : Nat :=
  o.acc.toNat / 2 ^ 16

/-- The sum of the channels in the 32 signed bits of `SYN_ACC` (10_state.md R35, 43_synthesis.md R206 (b)); a sum
outside them is free (log 20). -/
def mixedSum (sum : Int) : Word :=
  if -2 ^ 31 ≤ sum ∧ sum < 2 ^ 31 then BitVec.ofInt 32 sum else Config.freeSum sum

/-- The output code before it is cut to 12 bits (30_encoding.md R105 (c), 43_synthesis.md R207);
`/` rounds toward minus infinity, as the arithmetic shift does. -/
def outputCode (acc : Int) (volume outShift : Nat) : Int :=
  acc * volume / 2 ^ outShift + dacMidpoint

/-- The index of `NOTE[o][n]` (10_state.md R42, log 4). -/
def noteIndex (o n : Nat) : Nat :=
  noteCount * o + n

end Sys2Proof.Machine
end

