-- ==== Sys2Proof/Machine/Ops.lean ====
section
/-! DEFINITION. The named operations over the state: when an operation is enabled (30_encoding.md R111,
60_exceptions.md R247), reading and writing elements (20_memory.md R71), entering and leaving a handler
(60_exceptions.md R251 to R253), and filling the tables. -/

namespace Sys2Proof.Machine

/-- The one foreground operation a phase enables (10_state.md R22). -/
def Phase.op : Phase → Instr
  | .boot => .orchInit
  | .fill => .orchPoll
  | .load => .fftLoad
  | .rev => .fftRev
  | .stg => .fftStg
  | .bfy => .fftBfy
  | .twn => .fftTwn
  | .pki => .pkInit
  | .pks => .pkScan
  | .pkd => .pkDone
  | .qst => .qntStart
  | .qrd => .qntRed
  | .qcm => .qntCmp
  | .qout => .qntOut
  | .pub => .orchPub

/-- A foreground operation is enabled in its own phase and while no handler is pending or active
(10_state.md R22, 60_exceptions.md R247). DESIGN CHOICE (log 22): 44_orchestrator.md R223 (c) and
70_reset_and_hazards.md R306 say that `ORCH.PUB` may fall between any two steps of a synthesis activation; R247 is
followed, so no foreground operation does. -/
def State.foregroundEnabled (s : State) (p : Phase) : Bool :=
  decide (s.seq = p) && !s.handlerBusy

/-- The guard of an operation, with the scheduler's (30_encoding.md R111, 60_exceptions.md R247). -/
def enabled (i : Instr) (s : State) : Bool :=
  match i with
  | .envReset => true
  | .envAtick => decide (s.seq ≠ .boot)
  | .envEoc v => (Instr.envEoc v).wellFormed s.cfg.val.adcBits
  | .envStick => decide (s.seq ≠ .boot)
  | .acqEnter => s.acqPend && !s.acqAct
  | .acqWait => s.acqAct && !s.adcEoc
  | .acqStore => s.acqAct && s.adcEoc
  | .synEnter => s.synPend && !s.synAct
  | .synStep => s.synAct && decide (s.synPh = .step)
  | .synAdv => s.synAct && decide (s.synPh = .adv)
  | .synMix => s.synAct && decide (s.synPh = .mix)
  | .synOut => s.synAct && decide (s.synPh = .out)
  | .orchInit => s.foregroundEnabled .boot
  | .orchPoll => s.foregroundEnabled .fill
  | .orchPub => s.foregroundEnabled .pub
  | .fftLoad => s.foregroundEnabled .load
  | .fftRev => s.foregroundEnabled .rev
  | .fftStg => s.foregroundEnabled .stg
  | .fftBfy => s.foregroundEnabled .bfy
  | .fftTwn => s.foregroundEnabled .twn
  | .pkInit => s.foregroundEnabled .pki
  | .pkScan => s.foregroundEnabled .pks
  | .pkDone => s.foregroundEnabled .pkd
  | .qntStart => s.foregroundEnabled .qst
  | .qntRed => s.foregroundEnabled .qrd
  | .qntCmp => s.foregroundEnabled .qcm
  | .qntOut => s.foregroundEnabled .qout

/-- An operation that is not enabled where it stands is refused (30_encoding.md R111). -/
def guarded (i : Instr) (s : State) (body : Result) : Result :=
  if enabled i s then body else .refused (.notEnabled i)

/-- Goes on with what was read, or stops with the reason it could not be read. -/
def andThen {α : Type} (r : Except Fault α) (k : α → Result) : Result :=
  match r with
  | .ok v => k v
  | .error f => .fault f

/-- An unlisted element of a memory without reset contents holds no value (10_state.md R50, R51). -/
def noInitial {α : Type} (_ : Nat) : Option α := none

/-- Reads one whole element of a memory of `size` elements (20_memory.md R71, R73, 10_state.md R51). -/
def readElement {α : Type} (mem : MemId) (size : Nat) (initial : Nat → Option α) (m : Memory α) (i : Nat) :
    Except Fault α :=
  if i < size then
    match Memory.read initial m i with
    | some v => .ok v
    | none => .error (.noValue mem i)
  else .error (.noElement mem i)

/-- `MemRead(SAMP, i)` (10_state.md R39); an unwritten slot holds `RING_RESET[i]` (R50). -/
def State.readSamp (s : State) (i : Nat) : Except Fault (BitVec 16) :=
  readElement .samp ringSize s.cfg.val.ringResetAt s.samp i

/-- `MemRead(SNAP, i)` (10_state.md R40). -/
def State.readSnap (s : State) (i : Nat) : Except Fault (BitVec 16) :=
  readElement .snap ringSize noInitial s.snap i

/-- The element the analyzer loads: from `SAMP` or, under SNAPSHOT, from `SNAP` (41_fft_peak.md R156). -/
def State.readSource (s : State) (i : Nat) : Except Fault (BitVec 16) :=
  match s.cfg.val.loadPolicy with
  | .racy => s.readSamp i
  | .snapshot => s.readSnap i

/-- `MemRead(RE, i)` (10_state.md R41). -/
def State.readRe (s : State) (i : Nat) : Except Fault FloatVal :=
  readElement .re ringSize noInitial s.re i

/-- `MemRead(IM, i)` (10_state.md R41). -/
def State.readIm (s : State) (i : Nat) : Except Fault FloatVal :=
  readElement .im ringSize noInitial s.im i

/-- `MemRead(NOTE, [o][n])` (10_state.md R42); a note index above 11 names no element of its row. -/
def State.readNote (s : State) (o n : Nat) : Except Fault Word :=
  if n < noteCount then readElement .note (octaveCount * noteCount) noInitial s.note (noteIndex o n)
  else .error (.noElement .note (noteIndex o n))

/-- `MemRead(LABEL, n)` (10_state.md R44). -/
def State.readLabel (s : State) (n : Nat) : Except Fault (BitVec 16) :=
  readElement .label noteCount noInitial s.label n

/-- `MemRead(WAVE, i)` (10_state.md R45). -/
def State.readWave (s : State) (i : Nat) : Except Fault (BitVec 16) :=
  readElement .wave waveLength noInitial s.wave i

/-- `MemWrite(SAMP, i, v)` (20_memory.md R71). -/
def State.writeSamp (s : State) (i : Nat) (v : BitVec 16) : State :=
  { s with samp := Memory.write s.cfg.val.ringResetAt s.samp i v }

/-- `MemWrite(RE, i, x)` and `MemWrite(IM, i, y)` (20_memory.md R71). -/
def State.writeFrame (s : State) (i : Nat) (x y : FloatVal) : State :=
  { s with re := Memory.write noInitial s.re i x, im := Memory.write noInitial s.im i y }

/-- Reads the complex element `i` of the Spectral Frame and goes on with it. -/
def State.withFrame (s : State) (i : Nat) (k : FloatVal → FloatVal → Result) : Result :=
  andThen (s.readRe i) fun x => andThen (s.readIm i) fun y => k x y

/-- The squared magnitude of bin `k` of the frame (41_fft_peak.md R164). -/
def State.withMag2 (s : State) (k : Nat) (next : FloatVal → Result) : Result :=
  s.withFrame k fun x y => next (mag2 s.fmt x y)

/-- `SEQ <- p` (00_scope.md R13). -/
def State.goto (s : State) (p : Phase) : State :=
  { s with seq := p }

/-- The three look-up memories as `ORCH.INIT` fills them (44_orchestrator.md R221). -/
def State.loadTables (s : State) : State :=
  { s with
    note := Memory.ofList s.cfg.val.noteTable
    label := Memory.ofList s.cfg.val.labelTable
    wave := Memory.ofList s.cfg.val.waveTable }

/-- The value of slot `i` of `SAMP`, which always holds one: a sample or `RING_RESET[i]` (10_state.md R39, R50). -/
def State.sample (s : State) (i : Nat) : BitVec 16 :=
  (Memory.read s.cfg.val.ringResetAt s.samp i).getD 0

/-- `SNAP` as a copy of `SAMP` (44_orchestrator.md R222, 20_memory.md R76 (d)). -/
def State.takeSnapshot (s : State) : State :=
  { s with
    snap := Memory.tabulate ringSize s.sample }

/-- Entering the acquisition handler saves nothing and changes no mode (60_exceptions.md R252, 40_acquisition.md
R134). -/
def State.enterAcq (s : State) : State :=
  { s with acqPend := false, acqAct := true, acqWcnt := 0 }

/-- The acquisition activation ends: nothing is restored (60_exceptions.md R253). -/
def State.leaveAcq (s : State) : State :=
  { s with acqAct := false }

/-- Entering the synthesis handler saves nothing and changes no mode (60_exceptions.md R252, 43_synthesis.md
R203). -/
def State.enterSyn (s : State) : State :=
  { s with synPend := false, synAct := true, synPh := .step }

/-- The synthesis activation ends: nothing is restored (60_exceptions.md R253). -/
def State.leaveSyn (s : State) : State :=
  { s with synAct := false, synPh := .idle }

/-- A function of channel number and oscillator applied to every channel, from channel `c` on. -/
def mapChannels (f : Nat → Oscillator → Oscillator) : Nat → List Oscillator → List Oscillator
  | _, [] => []
  | c, o :: rest => f c o :: mapChannels f (c + 1) rest

end Sys2Proof.Machine
end

