-- ==== Sys2Proof/Machine/Acq.lean ====
section
/-! DEFINITION. The acquisition handler: `ACQ.ENTER`, `ACQ.WAIT`, `ACQ.STORE`. -/

namespace Sys2Proof.Machine

/-- `ACQ.ENTER` (40_acquisition.md R134). -/
def execAcqEnter (s : State) : Result :=
  guarded .acqEnter s <| .next s.enterAcq

/-- The poll count with one more poll, saturating (40_acquisition.md R135, 00_scope.md R17). -/
def nextPollCount (n : Word) : Nat :=
  min (n.toNat + 1) (2 ^ 32 - 1)

/-- The wait bound is finite and a poll count has reached it (40_acquisition.md R135). -/
def waitExpired (bound : Option Nat) (polls : Nat) : Bool :=
  match bound with
  | some m => decide (m ≤ polls)
  | none => false

/-- `ACQ.WAIT`: one poll that finds the flag clear (40_acquisition.md R135). -/
def execAcqWait (s : State) : Result :=
  guarded .acqWait s <|
    let n := nextPollCount s.acqWcnt
    let counted := { s with acqWcnt := BitVec.ofNat 32 n }
    .next (if waitExpired s.cfg.val.acqWaitMax n then (counted.raise .acqTo).leaveAcq else counted)

/-- `ACQ.STORE`: the sample goes to the slot at the old write index (40_acquisition.md R136). -/
def execAcqStore (s : State) : Result :=
  guarded .acqStore s <|
    .next { (s.writeSamp s.wrIdx.toNat s.adcDr).leaveAcq with adcEoc := false, wrIdx := s.wrIdx + 1 }

end Sys2Proof.Machine
end

