-- ==== Sys2Proof/Machine/Env.lean ====
section
/-! DEFINITION. The events of the environment: `ENV.RESET`, `ENV.ATICK`, `ENV.EOC`, `ENV.STICK`. -/

namespace Sys2Proof.Machine

/-- `ENV.RESET`: every register and element takes its reset value (70_reset_and_hazards.md R280).
The parameters, the trace and the free values' counter are no state of the CORE (log 16). -/
def execEnvReset (s : State) : Result :=
  guarded .envReset s <|
    .next { State.resetWith s.cfg with trace := s.trace, draws := s.draws + 1 }

/-- `ENV.ATICK`: the acquisition tick is pended, or lost (40_acquisition.md R133). -/
def execEnvAtick (s : State) : Result :=
  guarded .envAtick s <|
    .next (if s.acqPend then s.raise .acqOvr else { s with acqPend := true })

/-- `ENV.EOC v`: the converter completes a conversion (40_acquisition.md R132). -/
def execEnvEoc (v : BitVec 16) (s : State) : Result :=
  guarded (.envEoc v) s <|
    .next { s with adcDr := v, adcEoc := true, valued := { s.valued with adcDr := true } }

/-- `ENV.STICK`: the synthesis tick is pended, or lost (43_synthesis.md R202). -/
def execEnvStick (s : State) : Result :=
  guarded .envStick s <|
    .next (if s.synPend then s.raise .synOvr else { s with synPend := true })

end Sys2Proof.Machine
end

