-- ==== Sys2Proof/Machine/Fft.lean ====
section
/-! DEFINITION. The spectral analyzer: `FFT.LOAD`, `FFT.REV`, `FFT.STG`, `FFT.BFY`, `FFT.TWN`. -/

namespace Sys2Proof.Machine

/-- `FFT.LOAD`: copy one sample into the frame (41_fft_peak.md R156). -/
def execFftLoad (s : State) : Result :=
  guarded .fftLoad s <|
    andThen (s.readSource s.fi.toNat) fun v =>
      let t := s.writeFrame s.fi.toNat (s.fmt.ofNat v.toNat) s.fmt.zero
      .next (if s.fi.toNat = 1023 then { t with fi := 0, fj := 0, seq := .rev } else { t with fi := s.fi + 1 })

/-- `FFT.REV` after its swap: the counters and the phase, from the walk's next index (41_fft_peak.md R157). -/
def State.walkStep (s : State) : Result :=
  match walkNext s.fj.toNat with
  | none => .fault .walkDoesNotEnd
  | some j =>
    let t := { s with fj := BitVec.ofNat 10 j }
    .next (if s.fi.toNat = 1022 then { t with fstg := 1, seq := .stg } else { t with fi := s.fi + 1 })

/-- `FFT.REV`: one step of the butterfly index walk (41_fft_peak.md R157). -/
def execFftRev (s : State) : Result :=
  guarded .fftRev s <|
    if s.fi.toNat < s.fj.toNat then
      s.withFrame s.fi.toNat fun xr xi =>
        s.withFrame s.fj.toNat fun yr yi =>
          ((s.writeFrame s.fi.toNat yr yi).writeFrame s.fj.toNat xr xi).walkStep
    else s.walkStep

/-- `FFT.STG`: begin stage `FSTG` (41_fft_peak.md R159). -/
def execFftStg (s : State) : Result :=
  guarded .fftStg s <|
    match s.cfg.val.twiddle s.fstg.toNat with
    | none => .fault (.noTwiddle s.fstg.toNat)
    | some (c, d) =>
      .next { s with
        fhalf := BitVec.ofNat 10 (halfGroup s.fstg.toNat)
        cRe := c, cIm := d, wRe := s.fmt.one, wIm := s.fmt.zero
        fj := 0, fgrp := 0, seq := .bfy }

/-- `FFT.BFY`: one butterfly; all four elements are read before any is written (41_fft_peak.md R160). -/
def execFftBfy (s : State) : Result :=
  guarded .fftBfy s <|
    s.withFrame s.bfyUpper fun yr yi =>
      s.withFrame s.bfyLower fun xr xi =>
        let f := s.fmt
        let tr := cmulRe f s.wRe s.wIm xr xi
        let ti := cmulIm f s.wRe s.wIm xr xi
        let t := (s.writeFrame s.bfyLower (f.sub yr tr) (f.sub yi ti)).writeFrame s.bfyUpper
          (f.add yr tr) (f.add yi ti)
        .next { t with
          fgrp := BitVec.ofNat 11 s.bfyNextGroup
          seq := if 1024 ≤ s.bfyNextGroup then .twn else .bfy }

/-- `FFT.TWN`: advance the twiddle factor and move to the next position, stage or phase (41_fft_peak.md R161). -/
def execFftTwn (s : State) : Result :=
  guarded .fftTwn s <|
    let t := { s with
      wRe := cmulRe s.fmt s.wRe s.wIm s.cRe s.cIm
      wIm := cmulIm s.fmt s.wRe s.wIm s.cRe s.cIm }
    .next
      (if s.fj.toNat + 1 < s.fhalf.toNat then { t with fj := s.fj + 1, fgrp := 0, seq := .bfy }
       else if s.fstg.toNat < 10 then { t with fstg := s.fstg + 1, seq := .stg }
       else { t with seq := .pki })

end Sys2Proof.Machine
end

