-- ==== Sys2Proof/Machine/Orch.lean ====
section
/-! DEFINITION. The orchestrator: `ORCH.INIT`, `ORCH.POLL`, `ORCH.PUB`. -/

namespace Sys2Proof.Machine

/-- `ORCH.INIT`: fills the three look-up memories from the configuration (44_orchestrator.md R221). -/
def execOrchInit (s : State) : Result :=
  guarded .orchInit s <| .next (s.loadTables.goto .fill)

/-- What `ORCH.POLL` does when it finds the write index at 1023 (44_orchestrator.md R222). -/
def State.trigger (s : State) : State :=
  match s.cfg.val.loadPolicy with
  | .racy => { s with fi := 0, seq := .load }
  | .snapshot => { s.takeSnapshot with fi := 0, seq := .load }

/-- `ORCH.POLL`: one poll of the ring index (44_orchestrator.md R222). -/
def execOrchPoll (s : State) : Result :=
  guarded .orchPoll s <| .next (if s.wrIdx.toNat = fullIndex then s.trigger else s)

/-- `ORCH.PUB`: both fields of the Tuning Result in one operation (44_orchestrator.md R223). -/
def execOrchPub (s : State) : Result :=
  guarded .orchPub s <| .next { s with tuneLabel := s.qLabel, tuneFreq := s.qFreq, seq := .fill }

end Sys2Proof.Machine
end

