-- ==== Sys2Proof/Machine/Peak.lean ====
section
/-! DEFINITION. The bin-peak detector: `PK.INIT`, `PK.SCAN`, `PK.DONE`. -/

namespace Sys2Proof.Machine

/-- `PK.INIT`: start the search at bin 1 (41_fft_peak.md R164). -/
def execPkInit (s : State) : Result :=
  guarded .pkInit s <|
    s.withMag2 1 fun m => .next { s with pkBin := 1, pkMag := m, pkK := 2, seq := .pks }

/-- `PK.SCAN`: examine one bin; only a strictly greater magnitude replaces the best (41_fft_peak.md R165). -/
def execPkScan (s : State) : Result :=
  guarded .pkScan s <|
    s.withMag2 s.pkK.toNat fun m =>
      let t := if s.fmt.gt m s.pkMag then { s with pkMag := m, pkBin := s.pkK.setWidth 9 } else s
      .next { t with pkK := s.pkK + 1, seq := if s.pkK.toNat = 511 then .pkd else .pks }

/-- `PK.DONE`: deliver the dominant bin and its frequency (41_fft_peak.md R166). -/
def execPkDone (s : State) : Result :=
  guarded .pkDone s <|
    .next { s with
      domBin := s.pkBin, domFreqE4 := BitVec.ofNat 32 (binFrequency s.pkBin.toNat), seq := .qst }

end Sys2Proof.Machine
end

