-- ==== Sys2Proof/Machine/Quant.lean ====
section
/-! DEFINITION. The pitch quantizer: `QNT.START`, `QNT.RED`, `QNT.CMP`, `QNT.OUT`. -/

namespace Sys2Proof.Machine

/-- `QNT.START`: latch the input (42_quantizer.md R181). -/
def execQntStart (s : State) : Result :=
  guarded .qntStart s <|
    .next { s with
      qIn := s.domFreqE4, qF := s.domFreqE4, qOct := 0, seq := .qrd, valued := { s.valued with qIn := true } }

/-- `QNT.RED`: halve once, or leave the loop with note 0 as candidate (42_quantizer.md R182). -/
def execQntRed (s : State) : Result :=
  guarded .qntRed s <|
    if octaveThreshold < s.qF.toNat then .next { s with qF := s.qF >>> 1, qOct := s.qOct + 1 }
    else
      andThen (s.readNote 0 0) fun v =>
        .next { s with
          qBest := 0, qBdiff := BitVec.ofNat 32 (absDiff s.qF.toNat v.toNat), qN := 1, seq := .qcm }

/-- `QNT.CMP`: compare with one note of octave 0; only a strictly nearer note replaces the best
(42_quantizer.md R183). -/
def execQntCmp (s : State) : Result :=
  guarded .qntCmp s <|
    andThen (s.readNote 0 s.qN.toNat) fun v =>
      let d := absDiff s.qF.toNat v.toNat
      let t := if d < s.qBdiff.toNat then { s with qBdiff := BitVec.ofNat 32 d, qBest := s.qN } else s
      .next { t with qN := s.qN + 1, seq := if s.qN.toNat = 11 then .qout else .qcm }

/-- The octave of the result: the halving count, clamped to the table (42_quantizer.md R185). -/
def State.resultOctave (s : State) : Nat :=
  if octaveCount ≤ s.qOct.toNat then octaveCount - 1 else s.qOct.toNat

/-- `QNT.OUT`: form the result, guarding the table bound (42_quantizer.md R185). -/
def execQntOut (s : State) : Result :=
  guarded .qntOut s <|
    andThen (s.readLabel s.qBest.toNat) fun l =>
      andThen (s.readNote s.resultOctave s.qBest.toNat) fun v =>
        let t := if octaveCount ≤ s.qOct.toNat then s.raise .qRange else s
        .next { t with qLabel := l, qFreq := v, seq := .pub }

end Sys2Proof.Machine
end

