-- ==== Sys2Proof/Machine/Syn.lean ====
section
/-! DEFINITION. The synthesis handler: `SYN.ENTER`, `SYN.STEP`, `SYN.ADV`, `SYN.MIX`, `SYN.OUT`. -/

namespace Sys2Proof.Machine

/-- `SYN.ENTER` (43_synthesis.md R203). -/
def execSynEnter (s : State) : Result :=
  guarded .synEnter s <| .next s.enterSyn

/-- A channel's new step: a target frequency of 0 clears step and phase (43_synthesis.md R204). -/
def retuned (fc : Word) (o : Oscillator) : Oscillator :=
  if fc = 0 then { inc := 0, acc := 0 } else { o with inc := BitVec.ofNat 32 (phaseStep fc.toNat) }

/-- `SYN.STEP`: every channel's step from one reading of `TUNE_FREQ` (43_synthesis.md R204). -/
def execSynStep (s : State) : Result :=
  guarded .synStep s <|
    .next { s with
      osc := mapChannels (fun c o => retuned (s.cfg.val.channelFrequency c s.tuneFreq) o) 0 s.osc
      synPh := .adv }

/-- `SYN.ADV`: every phase advances by its step (43_synthesis.md R205). -/
def execSynAdv (s : State) : Result :=
  guarded .synAdv s <|
    .next { s with
      osc := mapChannels (fun _ o => { o with acc := BitVec.ofNat 32 (advancedPhase o) }) 0 s.osc
      synPh := .mix }

/-- The sum of the channels' wavetable samples (43_synthesis.md R206). -/
def State.mixChannels (s : State) : List Oscillator → Except Fault Int
  | [] => .ok 0
  | o :: rest =>
    match s.readWave (waveIndex o) with
    | .error f => .error f
    | .ok v =>
      match s.mixChannels rest with
      | .error f => .error f
      | .ok sum => .ok (v.toInt + sum)

/-- `SYN.MIX`: sample the wavetable and sum the channels (43_synthesis.md R206). -/
def execSynMix (s : State) : Result :=
  guarded .synMix s <|
    andThen (s.mixChannels s.osc) fun sum =>
      .next { s with
        synAcc := mixedSum sum, synPh := .out, valued := { s.valued with synAcc := true } }

/-- `SYN.OUT`: scale, re-centre and write the output; every write is one output sample (43_synthesis.md R207,
20_memory.md R77). -/
def execSynOut (s : State) : Result :=
  guarded .synOut s <|
    let code := BitVec.ofInt 12 (outputCode s.synAcc.toInt s.cfg.val.volume s.cfg.val.outShift)
    .next { s.leaveSyn with
      dacOut := code, dacStream := code :: s.dacStream, valued := { s.valued with dacOut := true } }

end Sys2Proof.Machine
end

