-- ==== Sys2Proof/Machine/Dispatch.lean ====
section
/-! DEFINITION. The dispatch of an operation to its meaning, one arm per constructor. -/

namespace Sys2Proof.Machine

/-- The meaning of an operation in a state (00_scope.md R9). -/
def exec (i : Instr) (s : State) : Host.Outcome State Fault Refusal :=
  match i with
  | .envReset => Sys2Proof.Machine.execEnvReset s
  | .envAtick => Sys2Proof.Machine.execEnvAtick s
  | .envEoc v => Sys2Proof.Machine.execEnvEoc v s
  | .envStick => Sys2Proof.Machine.execEnvStick s
  | .acqEnter => Sys2Proof.Machine.execAcqEnter s
  | .acqWait => Sys2Proof.Machine.execAcqWait s
  | .acqStore => Sys2Proof.Machine.execAcqStore s
  | .synEnter => Sys2Proof.Machine.execSynEnter s
  | .synStep => Sys2Proof.Machine.execSynStep s
  | .synAdv => Sys2Proof.Machine.execSynAdv s
  | .synMix => Sys2Proof.Machine.execSynMix s
  | .synOut => Sys2Proof.Machine.execSynOut s
  | .orchInit => Sys2Proof.Machine.execOrchInit s
  | .orchPoll => Sys2Proof.Machine.execOrchPoll s
  | .orchPub => Sys2Proof.Machine.execOrchPub s
  | .fftLoad => Sys2Proof.Machine.execFftLoad s
  | .fftRev => Sys2Proof.Machine.execFftRev s
  | .fftStg => Sys2Proof.Machine.execFftStg s
  | .fftBfy => Sys2Proof.Machine.execFftBfy s
  | .fftTwn => Sys2Proof.Machine.execFftTwn s
  | .pkInit => Sys2Proof.Machine.execPkInit s
  | .pkScan => Sys2Proof.Machine.execPkScan s
  | .pkDone => Sys2Proof.Machine.execPkDone s
  | .qntStart => Sys2Proof.Machine.execQntStart s
  | .qntRed => Sys2Proof.Machine.execQntRed s
  | .qntCmp => Sys2Proof.Machine.execQntCmp s
  | .qntOut => Sys2Proof.Machine.execQntOut s

end Sys2Proof.Machine
end

