-- ==== Sys2Proof/Machine/Schedule.lean ====
section
/-! DEFINITION. Which operation goes next: the trace's next word (30_encoding.md R106, R107) or, when the trace
is used up, a free choice among the enabled operations (60_exceptions.md R249, log 8); and how a word is placed
so that it runs next (log 9). -/

namespace Sys2Proof.Machine

/-- Every operation, `ENV.EOC` with one sample (30_encoding.md R109). -/
def allOperations (v : BitVec 16) : List Instr :=
  [.envReset, .envAtick, .envEoc v, .envStick, .acqEnter, .acqWait, .acqStore, .synEnter, .synStep, .synAdv,
    .synMix, .synOut, .orchInit, .orchPoll, .orchPub, .fftLoad, .fftRev, .fftStg, .fftBfy, .fftTwn, .pkInit,
    .pkScan, .pkDone, .qntStart, .qntRed, .qntCmp, .qntOut]

/-- The sample of a freely chosen `ENV.EOC`: any value of `ADC_BITS` bits (40_acquisition.md R132 (b)). -/
def State.freeSample (s : State) : BitVec 16 :=
  BitVec.ofNat 16 (Config.freeSample s.draws % 2 ^ s.cfg.val.adcBits)

/-- The operations enabled in a state (00_scope.md R9). -/
def State.enabledOperations (s : State) : List Instr :=
  (allOperations s.freeSample).filter fun i => enabled i s

/-- The operation a free choice picks among the enabled ones (60_exceptions.md R249). -/
def State.freeOperation (s : State) : Instr :=
  let ops := s.enabledOperations
  ops.getD (Config.freePick s.draws % ops.length) .envReset

/-- The next operation and the state it runs in. -/
def nextOperation (s : State) : Except DecodeError (Instr × State) :=
  match s.trace with
  | [] => .ok (s.freeOperation, { s with draws := s.draws + 1 })
  | _ :: _ =>
    match decode s.trace with
    | .ok (i, rest) => .ok (i, { s with trace := rest })
    | .error e => .error e

/-- Past boot: the only way out of `BOOT` is `ORCH.INIT`, which fills the tables (10_state.md R22). -/
def State.booted (s : State) : State :=
  if s.seq = .boot then s.loadTables.goto .fill else s

/-- A frame that does not hold 1024 elements is filled from the samples, as `FFT.LOAD` fills it (41_fft_peak.md
R156). -/
def State.framed (s : State) : State :=
  if Nat.beq s.re.length ringSize && Nat.beq s.im.length ringSize then s
  else
    { s with
      re := Memory.tabulate ringSize fun i => s.fmt.ofNat (s.sample i).toNat
      im := Memory.tabulate ringSize fun _ => s.fmt.zero }

/-- A snapshot that does not hold 1024 elements is taken. -/
def State.snapped (s : State) : State :=
  if Nat.beq s.snap.length ringSize then s else s.takeSnapshot

/-- No handler pending or active. -/
def State.unbusy (s : State) : State :=
  { s with acqPend := false, acqAct := false, synPend := false, synAct := false, synPh := .idle }

/-- In a phase of the foreground, with no handler in the way. -/
def State.inPhase (s : State) (p : Phase) : State :=
  s.booted.unbusy.goto p

/-- In a sub-step of a synthesis activation. -/
def State.inSynPhase (s : State) (p : SynPhase) : State :=
  { s.booted with synAct := true, synPh := p }

/-- The state with what selects an operation set, so that the operation is enabled (log 9). -/
def State.select (s : State) : Instr → State
  | .envReset => s
  | .envAtick => s.booted
  | .envEoc _ => s
  | .envStick => s.booted
  | .acqEnter => { s.booted with acqPend := true, acqAct := false }
  | .acqWait => { s.booted with acqAct := true, adcEoc := false }
  | .acqStore => { s.booted with acqAct := true, adcEoc := true }
  | .synEnter => { s.booted with synPend := true, synAct := false, synPh := .idle }
  | .synStep => s.inSynPhase .step
  | .synAdv => s.inSynPhase .adv
  | .synMix => s.inSynPhase .mix
  | .synOut => s.inSynPhase .out
  | .orchInit => s.unbusy.goto .boot
  | .orchPoll => s.inPhase .fill
  | .orchPub => s.inPhase .pub
  | .fftLoad => s.snapped.inPhase .load
  | .fftRev => s.framed.inPhase .rev
  | .fftStg => s.framed.inPhase .stg
  | .fftBfy => s.framed.inPhase .bfy
  | .fftTwn => s.framed.inPhase .twn
  | .pkInit => s.framed.inPhase .pki
  | .pkScan => s.framed.inPhase .pks
  | .pkDone => s.inPhase .pkd
  | .qntStart => s.inPhase .qst
  | .qntRed => s.inPhase .qrd
  | .qntCmp => s.inPhase .qcm
  | .qntOut => s.inPhase .qout

/-- The state with a word as the next of its trace, and its operation selected. -/
def State.placeWord (s : State) (w : Word) : State :=
  let t := match decodeWord w with
    | .ok i => s.select i
    | .error _ => s
  { t with trace := wordBytes w ++ t.trace }

end Sys2Proof.Machine
end

