-- ==== Sys2Proof/Machine/Step.lean ====
section
/-! DEFINITION. One step of the CORE: one atomic operation (00_scope.md R9), taken from the trace or freely
chosen, refused if it is illegal or not enabled (30_encoding.md R110, R111). -/

namespace Sys2Proof.Machine

/-- One step. -/
def step (s : State) : Host.Outcome State Fault Refusal :=
  match nextOperation s with
  | .ok (i, t) => exec i t
  | .error e => .refused (.illegalWord e)

/-- The state in which the next step runs exactly the operation whose bits are `w` (log 9). -/
def State.withFetchWord (s : State) (nbits w : Nat) : State :=
  s.placeWord (BitVec.ofNat 32 (w % 2 ^ nbits))

end Sys2Proof.Machine
end

