-- ==== Sys2Proof/Machine/Port.lean ====
section
/-! DEFINITION. The observation port (10_state.md R38): a read has no side effect, a write has no move. -/

namespace Sys2Proof.Machine

/-- A register that may hold no value: its own value once written, else a draw (10_state.md R51). DESIGN CHOICE
(log 7): the draw is any 32-bit word, also for a register narrower than that; the spec does not say whether it stays
within the bits R38 gives the register. -/
def State.drawUnless (s : State) (written : Bool) (r : Nat) (v : Word) : Word :=
  if written then v else Config.freePortWord s.draws r

/-- The registers from number 16 on: `STEP[c]` at `16 + 2c`, `PHASE[c]` at `17 + 2c`, and 0 past the last channel
(10_state.md R38). -/
def State.portOscillator (s : State) (k : Nat) : Word :=
  match s.osc[k / 2]? with
  | some o => if Nat.beq (k % 2) 0 then o.inc else o.acc
  | none => 0

/-- The word the port returns for register number `r` (10_state.md R38). -/
def State.portWord (s : State) (r : Nat) : Word :=
  match r with
  | 0 => s.status.setWidth 32
  | 1 => s.irq.setWidth 32
  | 2 => s.seq.code.setWidth 32
  | 3 => s.wrIdx.setWidth 32
  | 4 => s.drawUnless s.valued.adcDr 4 (s.adcDr.setWidth 32)
  | 5 => s.domBin.setWidth 32
  | 6 => s.domFreqE4
  | 7 => s.qOct.setWidth 32
  | 8 => s.tuneLabel.setWidth 32
  | 9 => s.tuneFreq
  | 10 => s.drawUnless s.valued.dacOut 10 (s.dacOut.setWidth 32)
  | 11 => s.drawUnless s.valued.qIn 11 s.qIn
  | 12 => s.drawUnless s.valued.synAcc 12 s.synAcc
  | 13 => 0
  | 14 => 0
  | 15 => 0
  | k + 16 => s.portOscillator k

/-- The byte at byte offset `a` of the port, register `a / 4`, least significant byte first (20_memory.md R74). -/
def State.portByte (s : State) (a : Nat) : Byte :=
  BitVec.ofNat 8 ((s.portWord (a / 4)).toNat / 2 ^ (8 * (a % 4)))

end Sys2Proof.Machine
end

