-- ==== Sys2Proof/Machine/Trace.lean ====
section
/-! DEFINITION. A trace as text and as pseudo-operations (30_encoding.md R113, R114). -/

namespace Sys2Proof.Machine

/-- The mnemonic of an operation (30_encoding.md R109). -/
def mnemonic : Instr → String
  | .envReset => "ENV.RESET"
  | .envAtick => "ENV.ATICK"
  | .envEoc _ => "ENV.EOC"
  | .envStick => "ENV.STICK"
  | .acqEnter => "ACQ.ENTER"
  | .acqWait => "ACQ.WAIT"
  | .acqStore => "ACQ.STORE"
  | .synEnter => "SYN.ENTER"
  | .synStep => "SYN.STEP"
  | .synAdv => "SYN.ADV"
  | .synMix => "SYN.MIX"
  | .synOut => "SYN.OUT"
  | .orchInit => "ORCH.INIT"
  | .orchPoll => "ORCH.POLL"
  | .orchPub => "ORCH.PUB"
  | .fftLoad => "FFT.LOAD"
  | .fftRev => "FFT.REV"
  | .fftStg => "FFT.STG"
  | .fftBfy => "FFT.BFY"
  | .fftTwn => "FFT.TWN"
  | .pkInit => "PK.INIT"
  | .pkScan => "PK.SCAN"
  | .pkDone => "PK.DONE"
  | .qntStart => "QNT.START"
  | .qntRed => "QNT.RED"
  | .qntCmp => "QNT.CMP"
  | .qntOut => "QNT.OUT"

/-- The operations without an operand. -/
def plainOperations : List Instr :=
  [.envReset, .envAtick, .envStick, .acqEnter, .acqWait, .acqStore, .synEnter, .synStep, .synAdv, .synMix, .synOut,
    .orchInit, .orchPoll, .orchPub, .fftLoad, .fftRev, .fftStg, .fftBfy, .fftTwn, .pkInit, .pkScan, .pkDone,
    .qntStart, .qntRed, .qntCmp, .qntOut]

/-- A line of a trace: an operation or one of the seven pseudo-operations (30_encoding.md R114).
DESIGN CHOICE (log 18): the spec does not define the `<op>` of `REP n <op>`; it is a real operation here, never a
pseudo-operation. -/
inductive TraceLine where
  | op (i : Instr)
  | rep (n : Nat) (i : Instr)
  | acqRun (v : BitVec 16)
  | synRun
  | fgStep
  | fftRun
  | qntRun
  | fgCycle
  deriving DecidableEq, Repr

/-- The operations of one stage of the transform: `FFT.STG`, then per position its butterflies and `FFT.TWN`
(30_encoding.md R114). -/
def stageOperations (s : Nat) : List Instr :=
  .fftStg :: (List.replicate (2 ^ (s - 1)) (List.replicate (1024 / 2 ^ s) Instr.fftBfy ++ [.fftTwn])).flatten

/-- `FFT.RUN` (30_encoding.md R114). -/
def fftRunOperations : List Instr :=
  List.replicate 1024 .fftLoad ++ List.replicate 1023 .fftRev ++
    (List.range 10).flatMap (fun s => stageOperations (s + 1)) ++
    (.pkInit :: List.replicate 510 .pkScan) ++ [.pkDone]

/-- `QNT.RUN` for an input that needs `k` halvings (30_encoding.md R114). -/
def qntRunOperations (k : Nat) : List Instr :=
  .qntStart :: (List.replicate (k + 1) .qntRed ++ List.replicate 11 .qntCmp ++ [.qntOut])

/-- `FG.CYCLE` for an analysis whose result needs `k` halvings (30_encoding.md R114). -/
def fgCycleOperations (k : Nat) : List Instr :=
  .orchPoll :: (fftRunOperations ++ qntRunOperations k ++ [.orchPub])

/-- `ACQ.RUN v` (30_encoding.md R114). -/
def acqRunOperations (v : BitVec 16) : List Instr :=
  [.envAtick, .envEoc v, .acqEnter, .acqStore]

/-- `SYN.RUN` (30_encoding.md R114). -/
def synRunOperations : List Instr :=
  [.envStick, .synEnter, .synStep, .synAdv, .synMix, .synOut]

/-- The operations a line stands for, where the foreground is in phase `p` and the quantizer's input needs `k`
halvings (30_encoding.md R114). -/
def TraceLine.expand (p : Phase) (k : Nat) : TraceLine → List Instr
  | .op i => [i]
  | .rep n i => List.replicate n i
  | .acqRun v => acqRunOperations v
  | .synRun => synRunOperations
  | .fgStep => [p.op]
  | .fftRun => fftRunOperations
  | .qntRun => qntRunOperations k
  | .fgCycle => fgCycleOperations k

/-- The value of a digit below `base`. -/
def digitValue (base : Nat) (c : Char) : Option Nat :=
  let n := c.toNat
  let d := if 48 ≤ n ∧ n ≤ 57 then n - 48
    else if 65 ≤ n ∧ n ≤ 70 then n - 55
    else if 97 ≤ n ∧ n ≤ 102 then n - 87
    else base
  if d < base then some d else none

/-- The number the digits stand for, after those read so far. -/
def digitsValue (base : Nat) : Nat → List Char → Option Nat
  | acc, [] => some acc
  | acc, c :: cs =>
    match digitValue base c with
    | some d => digitsValue base (acc * base + d) cs
    | none => none

/-- A decimal number, or a hexadecimal number after `0x` (30_encoding.md R113). -/
def readNumber : List Char → Option Nat
  | [] => none
  | ['0', 'x'] => none
  | '0' :: 'x' :: cs => digitsValue 16 0 cs
  | cs => digitsValue 10 0 cs

/-- The operand of `ENV.EOC`: a number its 16-bit field holds (30_encoding.md R107, R108). -/
def readSample (cs : List Char) : Option (BitVec 16) :=
  match readNumber cs with
  | some n => if n < 2 ^ 16 then some (BitVec.ofNat 16 n) else none
  | none => none

/-- A line up to its comment (30_encoding.md R113). -/
def dropComment : List Char → List Char
  | [] => []
  | ';' :: _ => []
  | c :: cs => c :: dropComment cs

/-- The blank-separated parts of a line; `cur` is the part being read, reversed. -/
def lineParts : List Char → List Char → List (List Char)
  | cur, [] => if cur.isEmpty then [] else [cur.reverse]
  | cur, c :: cs =>
    if c = ' ' ∨ c = '\t' ∨ c = '\r' then
      if cur.isEmpty then lineParts [] cs else cur.reverse :: lineParts [] cs
    else lineParts (c :: cur) cs

/-- An operation written as text: its mnemonic, and for `ENV.EOC` its operand (30_encoding.md R113). -/
def readOperation : List (List Char) → Option Instr
  | [m] => plainOperations.find? fun i => decide ((mnemonic i).toList = m)
  | [m, v] => if m = "ENV.EOC".toList then (readSample v).map .envEoc else none
  | _ => none

/-- The parts of a line as an operation or a pseudo-operation (30_encoding.md R113, R114); after `REP n` only a real
operation is read (DESIGN CHOICE, log 18). The spec does not say how the count `n` and the operand of
`ACQ.RUN v` are written: in decimal, or in hexadecimal after `0x`, as R113 has the operand of `ENV.EOC` (DESIGN
CHOICE, log 18). -/
def readParts : List (List Char) → Option TraceLine
  | [] => none
  | m :: rest =>
    if m = "REP".toList then
      match rest with
      | n :: op =>
        match readNumber n, readOperation op with
        | some k, some i => some (.rep k i)
        | _, _ => none
      | [] => none
    else if m = "ACQ.RUN".toList then
      match rest with
      | [v] => (readSample v).map .acqRun
      | _ => none
    else if rest.isEmpty && decide (m = "SYN.RUN".toList) then some .synRun
    else if rest.isEmpty && decide (m = "FG.STEP".toList) then some .fgStep
    else if rest.isEmpty && decide (m = "FFT.RUN".toList) then some .fftRun
    else if rest.isEmpty && decide (m = "QNT.RUN".toList) then some .qntRun
    else if rest.isEmpty && decide (m = "FG.CYCLE".toList) then some .fgCycle
    else (readOperation (m :: rest)).map .op

/-- The lines of a text; `cur` is the line being read, reversed. -/
def textLines : List Char → List Char → List (List Char)
  | cur, [] => [cur.reverse]
  | cur, c :: cs => if c = '\n' then cur.reverse :: textLines [] cs else textLines (c :: cur) cs

/-- A trace in text: blank lines are ignored; none where a line is neither an operation nor a pseudo-operation
(30_encoding.md R113). -/
def readLines : List (List Char) → Option (List TraceLine)
  | [] => some []
  | l :: ls =>
    match lineParts [] (dropComment l) with
    | [] => readLines ls
    | p :: ps =>
      match readParts (p :: ps), readLines ls with
      | some t, some ts => some (t :: ts)
      | _, _ => none

/-- A trace in text (30_encoding.md R113). -/
def readTrace (text : String) : Option (List TraceLine) :=
  readLines (textLines [] text.toList)

/-- A stored trace: the operations' words in order, each least significant byte first (30_encoding.md R107). -/
def storeTrace (ops : List Instr) : List Byte :=
  ops.flatMap encode

end Sys2Proof.Machine
end

