-- ==== Sys2Proof/Safety.lean ====
section
/-! DEFINITION. The terms claims are made in: runs of several operations, the closed forms of the spec's laws,
and the invariant of the machine. No operation's meaning uses any of these. -/

namespace Sys2Proof.Machine

/-- A sequence of operations, each executed in the state the one before left (00_scope.md R9). -/
def runOperations : List Instr → State → Result
  | [], s => .next s
  | i :: rest, s =>
    match exec i s with
    | .next t => runOperations rest t
    | .fault f => .fault f
    | .refused r => .refused r

/-- The low `n` bits of a number in reverse order. -/
def reverseBits : (n i : Nat) → Nat
  | 0, _ => 0
  | n + 1, i => i % 2 * 2 ^ n + reverseBits n (i / 2)

/-- `rev10(i)`: bit `b` is bit `9 - b` of `i` (41_fft_peak.md R158). -/
def rev10 (i : Nat) : Nat :=
  reverseBits 10 i

/-- A binary32 pattern that stands for a finite number. -/
def FinitePattern (c : FloatVal) : Prop :=
  c < 2 ^ 32 ∧ b32IsFinite c = true

/-- No handler's tick is pending and none is active (60_exceptions.md R247). -/
def State.Idle (s : State) : Prop :=
  s.acqPend = false ∧ s.acqAct = false ∧ s.synPend = false ∧ s.synAct = false

/-- The look-up memories are as `ORCH.INIT` leaves them (44_orchestrator.md R221). -/
def State.TablesLoaded (s : State) : Prop :=
  (∀ o n, o < 9 → n < 12 → s.readNote o n = .ok (s.cfg.val.noteTable.getD (12 * o + n) 0)) ∧
    (∀ n, n < 12 → s.readLabel n = .ok (s.cfg.val.labelTable.getD n 0)) ∧
    ∀ i, i < 1000 → s.readWave i = .ok (s.cfg.val.waveTable.getD i 0)

/-- The first `n` elements of the Spectral Frame hold values (10_state.md R41). -/
def State.FrameUpTo (s : State) (n : Nat) : Prop :=
  ∀ i, i < n → ∃ x y, s.readRe i = .ok x ∧ s.readIm i = .ok y

/-- Every element of the Spectral Frame holds a value (10_state.md R41). -/
def State.FrameFull (s : State) : Prop :=
  s.FrameUpTo 1024

/-- Every element of `SNAP` holds a value (10_state.md R40). -/
def State.SnapFull (s : State) : Prop :=
  ∀ i, i < 1024 → ∃ v, s.readSnap i = .ok v

/-- Every memory is in its canonical form (log 4). -/
structure State.Canonical (s : State) : Prop where
  samp : Memory.wf 1024 s.cfg.val.ringResetAt s.samp = true
  snap : Memory.wf 1024 noInitial s.snap = true
  re : Memory.wf 1024 noInitial s.re = true
  im : Memory.wf 1024 noInitial s.im = true
  note : Memory.wf 108 noInitial s.note = true
  label : Memory.wf 12 noInitial s.label = true
  wave : Memory.wf 1000 noInitial s.wave = true

/-- The butterfly position inside its stage (10_state.md R27, 41_fft_peak.md R160 (a)). -/
def State.StageInv (s : State) : Prop :=
  1 ≤ s.fstg.toNat ∧ s.fstg.toNat ≤ 10 ∧ s.fhalf.toNat = 2 ^ (s.fstg.toNat - 1) ∧ s.fj.toNat < s.fhalf.toNat

/-- What the foreground's registers and memories satisfy in each phase (10_state.md R22, R27, R29, R31). -/
def State.PhaseInv (s : State) : Prop :=
  match s.seq with
  | .boot => True
  | .fill => True
  | .load => s.fi.toNat ≤ 1023 ∧ s.FrameUpTo s.fi.toNat ∧ (s.cfg.val.loadPolicy = .snapshot → s.SnapFull)
  | .rev => s.fi.toNat ≤ 1022 ∧ s.fj.toNat = rev10 s.fi.toNat ∧ s.FrameFull
  | .stg => 1 ≤ s.fstg.toNat ∧ s.fstg.toNat ≤ 10 ∧ s.FrameFull
  | .bfy =>
    s.StageInv ∧ s.fgrp.toNat + 2 * s.fhalf.toNat ≤ 1024 ∧ 2 * s.fhalf.toNat ∣ s.fgrp.toNat ∧ s.FrameFull
  | .twn => s.StageInv ∧ s.FrameFull
  | .pki => s.FrameFull
  | .pks => 2 ≤ s.pkK.toNat ∧ s.pkK.toNat ≤ 511 ∧ 1 ≤ s.pkBin.toNat ∧ s.FrameFull
  | .pkd => 1 ≤ s.pkBin.toNat
  | .qst => True
  | .qrd => s.qOct.toNat ≤ 14 ∧ s.qF.toNat = s.qIn.toNat / 2 ^ s.qOct.toNat
  | .qcm =>
    s.qOct.toNat ≤ 14 ∧ s.qF.toNat = s.qIn.toNat / 2 ^ s.qOct.toNat ∧ 1 ≤ s.qN.toNat ∧ s.qN.toNat ≤ 11 ∧
      s.qBest.toNat < s.qN.toNat
  | .qout => s.qOct.toNat ≤ 14 ∧ s.qBest.toNat ≤ 11
  | .pub => True

/-- The invariant of the machine: what every state reached from reset satisfies, and no step breaks. -/
structure State.Inv (s : State) : Prop where
  /-- In `BOOT` no tick is pending and no handler active (70_reset_and_hazards.md R290). -/
  bootIdle : s.seq = .boot → s.Idle
  /-- Past `BOOT` the tables are as `ORCH.INIT` filled them, "immutable" (10_state.md R42, R45). -/
  tables : s.seq ≠ .boot → s.TablesLoaded
  /-- `SYN_PH` is 0 exactly while no synthesis activation is under way (10_state.md R35). -/
  synPhase : s.synAct = true ↔ s.synPh ≠ .idle
  /-- There are `NCH` channels (10_state.md R34). -/
  channels : s.osc.length = s.cfg.val.nch
  /-- Every phase accumulator is below its modulus (43_synthesis.md R208). -/
  phases : ∀ o ∈ s.osc, o.acc.toNat < 65536000
  /-- The mixed sum is bounded, where it fits its register (43_synthesis.md R206 (b), R210). -/
  mixBound : s.synPh = .out → s.cfg.val.nch * 32767 < 2 ^ 31 → s.synAcc.toInt.natAbs ≤ s.cfg.val.nch * 32767
  /-- `ADC_DR` has `ADC_BITS` bits (10_state.md R25). -/
  adcWidth : s.adcDr.toNat < 2 ^ s.cfg.val.adcBits
  /-- The phase's own condition. -/
  phase : s.PhaseInv

/-- The two states agree on every register and memory of the foreground agent and on the look-up memories
(10_state.md R20, 20_memory.md R82). -/
def State.SameForeground (s t : State) : Prop :=
  t.seq = s.seq ∧ t.fi = s.fi ∧ t.fj = s.fj ∧ t.fstg = s.fstg ∧ t.fhalf = s.fhalf ∧ t.fgrp = s.fgrp ∧
    t.wRe = s.wRe ∧ t.wIm = s.wIm ∧ t.cRe = s.cRe ∧ t.cIm = s.cIm ∧ t.pkK = s.pkK ∧ t.pkBin = s.pkBin ∧
    t.pkMag = s.pkMag ∧ t.domBin = s.domBin ∧ t.domFreqE4 = s.domFreqE4 ∧ t.qIn = s.qIn ∧ t.qF = s.qF ∧
    t.qOct = s.qOct ∧ t.qN = s.qN ∧ t.qBest = s.qBest ∧ t.qBdiff = s.qBdiff ∧ t.qLabel = s.qLabel ∧
    t.qFreq = s.qFreq ∧ t.tuneLabel = s.tuneLabel ∧ t.tuneFreq = s.tuneFreq ∧ t.snap = s.snap ∧ t.re = s.re ∧
    t.im = s.im ∧ t.note = s.note ∧ t.label = s.label ∧ t.wave = s.wave

/-- A rounding of an exact value to a binary32 pattern: `units` counts the exact value in units `2^(-149 - shift)`.
The pattern is finite, no finite pattern is nearer, and of two equally near values the one with an even last bit
is taken (41_fft_peak.md R151). -/
def IsRounding (units : Int) (shift : Nat) (r : FloatVal) : Prop :=
  FinitePattern r ∧ ∀ c, FinitePattern c →
    (b32Value r * 2 ^ shift - units).natAbs ≤ (b32Value c * 2 ^ shift - units).natAbs ∧
      ((b32Value r * 2 ^ shift - units).natAbs = (b32Value c * 2 ^ shift - units).natAbs →
        b32Value c ≠ b32Value r → r % 2 = 0)

/-- The exact value lies where binary32 does not overflow: below `2^128 - 2^103` in magnitude
(41_fft_peak.md R150, R151). -/
def InRange (units : Int) (shift : Nat) : Prop :=
  units.natAbs < (2 ^ 25 - 1) * 2 ^ (252 + shift)

end Sys2Proof.Machine
end

