-- ==== Sys2Proof/Certificates/Slice0/Obligations.lean ====
section
/-! DEFINITION. The statements about the machine, each from a rule of the spec. A statement about one operation
gives its word, its guard, the whole next state (so that what is not named is unchanged) and the refusal where the
guard does not hold. -/

open Sys2Proof Sys2Proof.Machine

section Encoding

/-- Bytes written out from the formats of R107 and the operation numbers of R109 decode to their operations, at
least one of every class. -/
def Obligations.SpecWordsDecode : Prop :=
  decode [0x00, 0x00, 0x00, 0x01] = .ok (.envReset, []) ∧
    decode [0x23, 0x01, 0x00, 0x03] = .ok (.envEoc 0x0123, []) ∧
    decode [0x00, 0x00, 0x00, 0x12] = .ok (.acqStore, []) ∧
    decode [0x00, 0x00, 0x00, 0x24] = .ok (.synOut, []) ∧
    decode [0x00, 0x00, 0x00, 0x31] = .ok (.orchPoll, []) ∧
    decode [0x00, 0x00, 0x00, 0x43] = .ok (.fftBfy, []) ∧
    decode [0x00, 0x00, 0x00, 0x46] = .ok (.pkScan, []) ∧
    decode [0x00, 0x00, 0x00, 0x52] = .ok (.qntCmp, [])

/-- Every operation, with every operand its field holds, decodes from its own bytes, whatever follows them
(R107, R109). -/
def Obligations.DecodeInvertsEncode : Prop :=
  ∀ (i : Instr) (rest : List Byte), decode (encode i ++ rest) = .ok (i, rest)

/-- Each operation has one word only: a word that decodes is the word of what it decodes to (R107, R109). -/
def Obligations.EncodeInvertsDecode : Prop :=
  ∀ (w : Word) (i : Instr), decodeWord w = .ok i → encodeWord i = w

/-- The illegal words are exactly those R110 lists, and a trace that begins with one is refused. -/
def Obligations.IllegalWordsAreRefused : Prop :=
  (∀ w : Word, (∃ e, decodeWord w = .error e) ↔
    let op := w.toNat / 2 ^ 24
    op = 0x00 ∨ (0x05 ≤ op ∧ op ≤ 0x0F) ∨ (0x13 ≤ op ∧ op ≤ 0x1F) ∨ (0x25 ≤ op ∧ op ≤ 0x2F) ∨
      (0x33 ≤ op ∧ op ≤ 0x3F) ∨ (0x48 ≤ op ∧ op ≤ 0x4F) ∨ (0x54 ≤ op ∧ op ≤ 0xFF) ∨
      (op ≠ 0x03 ∧ w.toNat % 2 ^ 24 ≠ 0) ∨ (op = 0x03 ∧ w.toNat / 2 ^ 16 % 2 ^ 8 ≠ 0)) ∧
    ∀ (s : State) (w : Word) (e : DecodeError) (rest : List Byte),
      s.trace = wordBytes w ++ rest → decodeWord w = .error e → step s = .refused (.illegalWord e)

/-- When the trace's next bytes decode to an operation, a step is that operation, executed with its bytes taken
from the trace (R9, R106, R107). -/
def Obligations.StepRunsTheDecodedOperation : Prop :=
  ∀ (s : State) (i : Instr) (rest : List Byte), decode s.trace = .ok (i, rest) →
    step s = exec i { s with trace := rest }

/-- With no trace left, a step is some operation that is enabled (R249); which one is free (log 8). -/
def Obligations.StepWithoutTraceRunsAnEnabledOperation : Prop :=
  ∀ s : State, s.trace = [] →
    ∃ i, enabled i s = true ∧ step s = exec i { s with draws := s.draws + 1 }

/-- An operation is refused exactly where it is not enabled (R111). -/
def Obligations.RefusedExactlyWhenNotEnabled : Prop :=
  ∀ (i : Instr) (s : State), (∃ r, exec i s = .refused r) ↔ enabled i s = false

end Encoding

section Environment

/-- `ENV.RESET` completes in every state and leaves the values R50 gives; an element R50 leaves unspecified holds no
value, and the port does not give the old value of an unspecified register (R51). Nothing is said of the values
log 6 names. -/
def Obligations.ResetLeavesTheResetState : Prop :=
  decodeWord 0x01000000 = .ok .envReset ∧
    ∀ s : State, ∃ t, exec .envReset s = .next t ∧ t.cfg = s.cfg ∧ t.seq = .boot ∧ t.wrIdx = 0 ∧ t.adcEoc = false ∧
      t.acqPend = false ∧ t.acqAct = false ∧ t.synPend = false ∧ t.synAct = false ∧ t.acqWcnt = 0 ∧
      t.synPh = .idle ∧ t.status = 0 ∧ t.domBin = 0 ∧ t.domFreqE4 = 0 ∧ t.qOct = 0 ∧ t.tuneLabel = 0x2020 ∧
      t.tuneFreq = 0 ∧ t.osc.length = s.cfg.val.nch ∧ (∀ o ∈ t.osc, o.inc = 0 ∧ o.acc = 0) ∧
      (∀ i, i < 1024 → t.readSamp i = .ok ((Memory.lookup s.cfg.val.ringReset i).getD 0)) ∧
      (∀ i v, t.readSnap i ≠ .ok v) ∧ (∀ i x, t.readRe i ≠ .ok x) ∧ (∀ i x, t.readIm i ≠ .ok x) ∧
      (∀ o n v, t.readNote o n ≠ .ok v) ∧ (∀ n v, t.readLabel n ≠ .ok v) ∧ (∀ i v, t.readWave i ≠ .ok v) ∧
      ∀ r, r = 4 ∨ r = 10 ∨ r = 11 ∨ r = 12 → t.portWord r = Config.freePortWord t.draws r

/-- After a reset exactly `ORCH.INIT`, `ENV.EOC v` with an admitted sample, and `ENV.RESET` are enabled (R281). -/
def Obligations.ResetStateEnablesOnlyBoot : Prop :=
  ∀ s t : State, exec .envReset s = .next t → ∀ i : Instr, enabled i t = true ↔
    i = .orchInit ∨ i = .envReset ∨ ∃ v : BitVec 16, v.toNat < 2 ^ s.cfg.val.adcBits ∧ i = .envEoc v

/-- `ENV.ATICK` (R133). -/
def Obligations.AcquisitionTickIsPendedOrLost : Prop :=
  decodeWord 0x02000000 = .ok .envAtick ∧ ∀ s : State,
    (s.seq ≠ .boot → s.acqPend = true → exec .envAtick s = .next { s with status := s.status ||| 0b0010 }) ∧
      (s.seq ≠ .boot → s.acqPend = false → exec .envAtick s = .next { s with acqPend := true }) ∧
      (s.seq = .boot → exec .envAtick s = .refused (.notEnabled .envAtick))

/-- `ENV.EOC v` (R132). The model's own record `valued` (log 7) is left to `OwnFieldsRecordTheRun`. -/
def Obligations.ConversionLatchesTheSample : Prop :=
  ∀ v : BitVec 16, decodeWord (0x0300#16 ++ v) = .ok (.envEoc v) ∧ ∀ s : State,
    (v.toNat < 2 ^ s.cfg.val.adcBits → ∃ t, exec (.envEoc v) s = .next t ∧
      t = { s with adcDr := v, adcEoc := true, valued := t.valued }) ∧
      (¬v.toNat < 2 ^ s.cfg.val.adcBits → exec (.envEoc v) s = .refused (.notEnabled (.envEoc v)))

/-- `ENV.STICK` (R202). -/
def Obligations.SynthesisTickIsPendedOrLost : Prop :=
  decodeWord 0x04000000 = .ok .envStick ∧ ∀ s : State,
    (s.seq ≠ .boot → s.synPend = true → exec .envStick s = .next { s with status := s.status ||| 0b0100 }) ∧
      (s.seq ≠ .boot → s.synPend = false → exec .envStick s = .next { s with synPend := true }) ∧
      (s.seq = .boot → exec .envStick s = .refused (.notEnabled .envStick))

end Environment

section Acquisition

/-- `ACQ.ENTER` (R134). -/
def Obligations.AcquisitionHandlerIsEntered : Prop :=
  decodeWord 0x10000000 = .ok .acqEnter ∧ ∀ s : State,
    (s.acqPend = true ∧ s.acqAct = false → exec .acqEnter s =
      .next { s with acqPend := false, acqAct := true, acqWcnt := 0 }) ∧
      (¬(s.acqPend = true ∧ s.acqAct = false) → exec .acqEnter s = .refused (.notEnabled .acqEnter))

/-- `ACQ.WAIT` (R135): `n` is the number of polls of this activation, this one included. -/
def Obligations.PollCountsAndTimesOut : Prop :=
  decodeWord 0x11000000 = .ok .acqWait ∧ ∀ s : State,
    (s.acqAct = true ∧ s.adcEoc = false →
      let n := min (s.acqWcnt.toNat + 1) (2 ^ 32 - 1)
      ((∀ m, s.cfg.val.acqWaitMax = some m → n < m) →
        exec .acqWait s = .next { s with acqWcnt := BitVec.ofNat 32 n }) ∧
      (∀ m, s.cfg.val.acqWaitMax = some m → m ≤ n → exec .acqWait s =
        .next { s with acqWcnt := BitVec.ofNat 32 n, status := s.status ||| 0b0001, acqAct := false })) ∧
      (¬(s.acqAct = true ∧ s.adcEoc = false) → exec .acqWait s = .refused (.notEnabled .acqWait))

/-- `ACQ.STORE` (R136). The memory's canonical form (log 4), which every step keeps by
`StepKeepsMemoriesCanonical`, is its only premise beyond the guard. -/
def Obligations.StoreWritesTheRingAndAdvances : Prop :=
  decodeWord 0x12000000 = .ok .acqStore ∧ ∀ s : State,
    (s.acqAct = true ∧ s.adcEoc = true → Memory.wf 1024 s.cfg.val.ringResetAt s.samp = true →
      ∃ t, exec .acqStore s = .next t ∧
        t = { s with samp := t.samp, adcEoc := false, wrIdx := t.wrIdx, acqAct := false } ∧
        t.wrIdx.toNat = (s.wrIdx.toNat + 1) % 1024 ∧
        ∀ i, t.readSamp i = if i = s.wrIdx.toNat then .ok s.adcDr else s.readSamp i) ∧
      (¬(s.acqAct = true ∧ s.adcEoc = true) → exec .acqStore s = .refused (.notEnabled .acqStore))

/-- The write index counts the stores, modulo 1024, whatever else happens between them (R137 (a), (c)). -/
def Obligations.WriteIndexCountsTheStores : Prop :=
  ∀ (ops : List Instr) (s t : State), .envReset ∉ ops → runOperations ops s = .next t →
    t.wrIdx.toNat = (s.wrIdx.toNat + ops.count .acqStore) % 1024

/-- After any number of acquisitions each slot holds the last sample stored into it, or what it held before if there
is none (R137 (b)). The ring's canonical form (log 4), which every step keeps by `StepKeepsMemoriesCanonical`, is a
premise. -/
def Obligations.RingHoldsTheLastSamples : Prop :=
  ∀ (vs : List (BitVec 16)) (s : State), s.seq ≠ .boot → s.acqPend = false → s.acqAct = false →
    Memory.wf 1024 s.cfg.val.ringResetAt s.samp = true → (∀ v ∈ vs, v.toNat < 2 ^ s.cfg.val.adcBits) →
    ∃ t, runOperations (vs.flatMap acqRunOperations) s = .next t ∧
      t.wrIdx.toNat = (s.wrIdx.toNat + vs.length) % 1024 ∧
      (∀ j v, vs[j]? = some v → vs.length ≤ j + 1024 →
        t.readSamp ((s.wrIdx.toNat + j) % 1024) = .ok v) ∧
      ∀ i, i < 1024 → (∀ j, j < vs.length → (s.wrIdx.toNat + j) % 1024 ≠ i) → t.readSamp i = s.readSamp i

end Acquisition

section Synthesis

/-- `SYN.ENTER` (R203). -/
def Obligations.SynthesisHandlerIsEntered : Prop :=
  decodeWord 0x20000000 = .ok .synEnter ∧ ∀ s : State,
    (s.synPend = true ∧ s.synAct = false → exec .synEnter s =
      .next { s with synPend := false, synAct := true, synPh := .step }) ∧
      (¬(s.synPend = true ∧ s.synAct = false) → exec .synEnter s = .refused (.notEnabled .synEnter))

/-- `SYN.STEP` (R204): every channel's step from one reading of `TUNE_FREQ`; a target of 0 clears step and phase. -/
def Obligations.StepsFollowThePublishedFrequency : Prop :=
  decodeWord 0x21000000 = .ok .synStep ∧ ∀ s : State,
    (s.synAct = true ∧ s.synPh = .step → ∃ t, exec .synStep s = .next t ∧
      t = { s with osc := t.osc, synPh := .adv } ∧ t.osc.length = s.osc.length ∧
      ∀ (c : Nat) (o : Oscillator), s.osc[c]? = some o →
        let fc := s.cfg.val.channelFrequency c s.tuneFreq
        ∃ p, t.osc[c]? = some p ∧ (fc = 0 → p.inc = 0 ∧ p.acc = 0) ∧
          (fc ≠ 0 → p.inc.toNat = fc.toNat * 1024 / 3125 ∧ p.acc = o.acc)) ∧
      (¬(s.synAct = true ∧ s.synPh = .step) → exec .synStep s = .refused (.notEnabled .synStep))

/-- `SYN.ADV` (R205): every phase advances by its step, modulo 65536000, by true remainder. -/
def Obligations.PhasesAdvanceByTrueRemainder : Prop :=
  decodeWord 0x22000000 = .ok .synAdv ∧ ∀ s : State,
    (s.synAct = true ∧ s.synPh = .adv → ∃ t, exec .synAdv s = .next t ∧
      t = { s with osc := t.osc, synPh := .mix } ∧ t.osc.length = s.osc.length ∧
      ∀ (c : Nat) (o : Oscillator), s.osc[c]? = some o →
        ∃ p, t.osc[c]? = some p ∧ p.inc = o.inc ∧ p.acc.toNat = (o.acc.toNat + o.inc.toNat) % 65536000) ∧
      (¬(s.synAct = true ∧ s.synPh = .adv) → exec .synAdv s = .refused (.notEnabled .synAdv))

/-- `SYN.MIX` (R206): `w` gives the wavetable entry each channel's phase selects; the sum is exact wherever it fits
the 32 signed bits of `SYN_ACC`, as R210 has it wherever the volume is not 0. -/
def Obligations.MixSumsTheChannels : Prop :=
  decodeWord 0x23000000 = .ok .synMix ∧ ∀ s : State,
    (s.synAct = true ∧ s.synPh = .mix → ∀ w : Oscillator → BitVec 16,
      (∀ o ∈ s.osc, s.readWave (o.acc.toNat / 2 ^ 16) = .ok (w o)) →
      ∃ t, exec .synMix s = .next t ∧
        t = { s with synAcc := t.synAcc, synPh := .out, valued := t.valued } ∧
        let sum := (s.osc.map fun o => (w o).toInt).sum
        (-2 ^ 31 ≤ sum ∧ sum < 2 ^ 31 → t.synAcc.toInt = sum)) ∧
      (¬(s.synAct = true ∧ s.synPh = .mix) → exec .synMix s = .refused (.notEnabled .synMix))

/-- `SYN.OUT` (R207, R210): the output code is exact and needs no saturation; `/` rounds toward minus infinity. The
premise on the mixed sum is part of the invariant. -/
def Obligations.OutputCodeIsExact : Prop :=
  decodeWord 0x24000000 = .ok .synOut ∧ ∀ s : State,
    (s.synAct = true ∧ s.synPh = .out → s.synAcc.toInt.natAbs ≤ s.cfg.val.nch * 32767 →
      ∃ t, exec .synOut s = .next t ∧
        t = { s with
          dacOut := t.dacOut, synAct := false, synPh := .idle, valued := t.valued, dacStream := t.dacStream } ∧
        (t.dacOut.toNat : Int) = s.synAcc.toInt * s.cfg.val.volume / 2 ^ s.cfg.val.outShift + 2048) ∧
      (¬(s.synAct = true ∧ s.synPh = .out) → exec .synOut s = .refused (.notEnabled .synOut))

/-- While a channel's target frequency is 0, an activation leaves its step and phase at 0 and it contributes
`WAVE[0]`; in the default configuration the output code is then 2048 (R211). -/
def Obligations.ZeroFrequencyIsSilent : Prop :=
  ∀ s : State, s.Inv → s.seq ≠ .boot → s.synPend = false → s.synAct = false →
    ∃ t, runOperations synRunOperations s = .next t ∧
      (∀ (c : Nat) (o : Oscillator), s.osc[c]? = some o → s.cfg.val.channelFrequency c s.tuneFreq = 0 →
        t.osc[c]? = some { inc := 0, acc := 0 }) ∧
      ((∀ c, c < s.cfg.val.nch → s.cfg.val.channelFrequency c s.tuneFreq = 0) → s.cfg.val.nch * 32767 < 2 ^ 31 →
        t.synAcc.toInt = s.cfg.val.nch * (s.cfg.val.waveTable.getD 0 0).toInt) ∧
      (s.cfg.val = Config.standard → s.tuneFreq = 0 → t.dacOut = 2048)

/-- After `n` activations with one published frequency a channel's phase has advanced by `n` times its step,
modulo 65536000 (R209). -/
def Obligations.PhaseAccumulatesTheStep : Prop :=
  ∀ (n : Nat) (s : State), s.Inv → s.seq ≠ .boot → s.synPend = false → s.synAct = false →
    ∃ t, runOperations (List.replicate n synRunOperations).flatten s = .next t ∧ t.tuneFreq = s.tuneFreq ∧
      ∀ (c : Nat) (o : Oscillator), s.osc[c]? = some o →
        let fc := s.cfg.val.channelFrequency c s.tuneFreq
        fc ≠ 0 → ∃ p, t.osc[c]? = some p ∧
          p.acc.toNat = (o.acc.toNat + n * (fc.toNat * 1024 / 3125)) % 65536000

end Synthesis

section Orchestrator

/-- `ORCH.INIT` (R221): the three look-up memories hold the configuration's tables. -/
def Obligations.InitFillsTheTables : Prop :=
  decodeWord 0x30000000 = .ok .orchInit ∧ ∀ s : State,
    (s.seq = .boot ∧ s.Idle → ∃ t, exec .orchInit s = .next t ∧
      t = { s with note := t.note, label := t.label, wave := t.wave, seq := .fill } ∧
      (∀ o n, o < 9 → n < 12 → t.readNote o n = .ok (s.cfg.val.noteTable.getD (12 * o + n) 0)) ∧
      (∀ n, n < 12 → t.readLabel n = .ok (s.cfg.val.labelTable.getD n 0)) ∧
      ∀ i, i < 1000 → t.readWave i = .ok (s.cfg.val.waveTable.getD i 0)) ∧
      (¬(s.seq = .boot ∧ s.Idle) → exec .orchInit s = .refused (.notEnabled .orchInit))

/-- `ORCH.POLL` (R222): at write index 1023 the analysis begins, under SNAPSHOT with a copy of the whole ring; at any
other index nothing changes. -/
def Obligations.PollTriggersAtTheLastSlot : Prop :=
  decodeWord 0x31000000 = .ok .orchPoll ∧ ∀ s : State,
    (s.seq = .fill ∧ s.Idle →
      (s.wrIdx.toNat ≠ 1023 → exec .orchPoll s = .next s) ∧
      (s.wrIdx.toNat = 1023 → ∃ t, exec .orchPoll s = .next t ∧
        t = { s with snap := t.snap, fi := 0, seq := .load } ∧
        (s.cfg.val.loadPolicy = .racy → t.snap = s.snap) ∧
        (s.cfg.val.loadPolicy = .snapshot → ∀ i, i < 1024 → t.readSnap i = s.readSamp i))) ∧
      (¬(s.seq = .fill ∧ s.Idle) → exec .orchPoll s = .refused (.notEnabled .orchPoll))

/-- `ORCH.PUB` (R223). That it is refused inside a synthesis activation follows R247 against R223 (c) and is the
model's choice (log 22). -/
def Obligations.PublishIsAtomic : Prop :=
  decodeWord 0x32000000 = .ok .orchPub ∧ ∀ s : State,
    (s.seq = .pub ∧ s.Idle → exec .orchPub s =
      .next { s with tuneLabel := s.qLabel, tuneFreq := s.qFreq, seq := .fill }) ∧
      (¬(s.seq = .pub ∧ s.Idle) → exec .orchPub s = .refused (.notEnabled .orchPub))

/-- Whatever the handlers and the environment do after the trigger, under SNAPSHOT every element loaded so far comes
from the ring as it stood at the triggering poll (R81). In a format other than binary32 `+0.0` is `itof(0)`
(log 2). -/
def Obligations.SnapshotFrameIsTheRingAtTheTrigger : Prop :=
  ∀ (s u t : State) (ops : List Instr), s.Inv → s.cfg.val.loadPolicy = .snapshot → s.seq = .fill →
    s.wrIdx.toNat = 1023 → exec .orchPoll s = .next u →
    (∀ i ∈ ops, i ≠ .envReset ∧ (i.agent = .fg → i = .fftLoad)) → runOperations ops u = .next t →
    ∀ (k : Nat) (v : BitVec 16), k < 1024 → (t.seq = .load → k < t.fi.toNat) → s.readSamp k = .ok v →
      t.readRe k = .ok (s.fmt.ofNat v.toNat) ∧ t.readIm k = .ok (s.fmt.ofNat 0)

/-- From a triggering poll with no handler in the way the foreground runs one whole analysis cycle of `8728 + k`
operations and is back in `FILL`, with `k` the final `Q_OCT` (R114, R225). -/
def Obligations.AnalysisCycleCompletes : Prop :=
  ∀ s : State, s.Inv → s.seq = .fill → s.Idle → s.wrIdx.toNat = 1023 →
    ∃ (k : Nat) (t : State), k ≤ 9 ∧ runOperations (fgCycleOperations k) s = .next t ∧
      (fgCycleOperations k).length = 8728 + k ∧ t.qOct.toNat = k ∧ t.seq = .fill

end Orchestrator

section Analyzer

/-- `FFT.LOAD` (R156). That `s.fmt.ofNat 0` is `+0.0` of a format other than binary32 is the model's choice
(log 2). -/
def Obligations.LoadConvertsOneSample : Prop :=
  decodeWord 0x40000000 = .ok .fftLoad ∧ ∀ s : State,
    (s.seq = .load ∧ s.Idle → ∀ v : BitVec 16,
      (s.cfg.val.loadPolicy = .racy → s.readSamp s.fi.toNat = .ok v) →
      (s.cfg.val.loadPolicy = .snapshot → s.readSnap s.fi.toNat = .ok v) →
      ∃ t, exec .fftLoad s = .next t ∧
        t = { s with re := t.re, im := t.im, fi := t.fi, fj := t.fj, seq := t.seq } ∧
        (s.fi.toNat = 1023 → t.fi = 0 ∧ t.fj = 0 ∧ t.seq = .rev) ∧
        (s.fi.toNat ≠ 1023 → t.fi.toNat = s.fi.toNat + 1 ∧ t.fj = s.fj ∧ t.seq = .load) ∧
        ∀ k, t.readRe k = (if k = s.fi.toNat then .ok (s.fmt.ofNat v.toNat) else s.readRe k) ∧
          t.readIm k = if k = s.fi.toNat then .ok (s.fmt.ofNat 0) else s.readIm k) ∧
      (¬(s.seq = .load ∧ s.Idle) → exec .fftLoad s = .refused (.notEnabled .fftLoad))

/-- `FFT.REV` (R157). The loop takes away the `z` leading ones of `FJ` and sets the zero below them. -/
def Obligations.ReversalStepSwapsAndWalks : Prop :=
  decodeWord 0x41000000 = .ok .fftRev ∧ ∀ s : State,
    (s.seq = .rev ∧ s.Idle → s.fi.toNat ≤ 1022 →
      ∀ z, z ≤ 9 → s.fj.toNat / 2 ^ (9 - z) = 2 ^ (z + 1) - 2 →
      ∀ xr xi yr yi, (s.fi.toNat < s.fj.toNat → s.readRe s.fi.toNat = .ok xr ∧ s.readIm s.fi.toNat = .ok xi ∧
        s.readRe s.fj.toNat = .ok yr ∧ s.readIm s.fj.toNat = .ok yi) →
      ∃ t, exec .fftRev s = .next t ∧
        t = { s with re := t.re, im := t.im, fi := t.fi, fj := t.fj, fstg := t.fstg, seq := t.seq } ∧
        t.fj.toNat = 2 ^ (9 - z) + s.fj.toNat % 2 ^ (9 - z) ∧
        (s.fi.toNat = 1022 → t.fi = s.fi ∧ t.fstg = 1 ∧ t.seq = .stg) ∧
        (s.fi.toNat ≠ 1022 → t.fi.toNat = s.fi.toNat + 1 ∧ t.fstg = s.fstg ∧ t.seq = .rev) ∧
        (¬s.fi.toNat < s.fj.toNat → t.re = s.re ∧ t.im = s.im) ∧
        (s.fi.toNat < s.fj.toNat → ∀ k,
          t.readRe k = (if k = s.fi.toNat then .ok yr else if k = s.fj.toNat then .ok xr else s.readRe k) ∧
          t.readIm k = if k = s.fi.toNat then .ok yi else if k = s.fj.toNat then .ok xi else s.readIm k)) ∧
      (¬(s.seq = .rev ∧ s.Idle) → exec .fftRev s = .refused (.notEnabled .fftRev))

/-- The 1023 steps of the `REV` phase put at every index the element that was at its bit reversal (R158). -/
def Obligations.ReversalPhasePermutesTheFrame : Prop :=
  ∀ s : State, s.seq = .rev → s.Idle → s.fi = 0 → s.fj = 0 → s.FrameFull →
    ∃ t, runOperations (List.replicate 1023 .fftRev) s = .next t ∧ t.seq = .stg ∧ t.fstg = 1 ∧ t.fj = 1023 ∧
      ∀ i, i < 1024 → t.readRe i = s.readRe (rev10 i) ∧ t.readIm i = s.readIm (rev10 i)

/-- `FFT.STG` (R159). That `s.fmt.ofNat 1` and `s.fmt.ofNat 0` are `1.0` and `+0.0` of a format other than binary32
is the model's choice (log 2). -/
def Obligations.StageSetsUpItsRegisters : Prop :=
  decodeWord 0x42000000 = .ok .fftStg ∧ ∀ s : State,
    (s.seq = .stg ∧ s.Idle → ∀ c d, 1 ≤ s.fstg.toNat → s.cfg.val.tw[s.fstg.toNat - 1]? = some (c, d) →
      ∃ t, exec .fftStg s = .next t ∧
        t = { s with
          fhalf := t.fhalf, cRe := c, cIm := d, wRe := s.fmt.ofNat 1, wIm := s.fmt.ofNat 0
          fj := 0, fgrp := 0, seq := .bfy } ∧
        t.fhalf.toNat = 2 ^ (s.fstg.toNat - 1)) ∧
      (¬(s.seq = .stg ∧ s.Idle) → exec .fftStg s = .refused (.notEnabled .fftStg))

/-- `FFT.BFY` (R160): all four elements are read before any is written; where the two indices were the same, element
`a` would keep the last write. -/
def Obligations.ButterflyCombinesTwoElements : Prop :=
  decodeWord 0x43000000 = .ok .fftBfy ∧ ∀ s : State,
    (s.seq = .bfy ∧ s.Idle →
      let a := s.fgrp.toNat + s.fj.toNat
      let b := a + s.fhalf.toNat
      let g := s.fgrp.toNat + 2 * s.fhalf.toNat
      let f := s.fmt
      ∀ xr xi yr yi, s.readRe b = .ok xr → s.readIm b = .ok xi → s.readRe a = .ok yr → s.readIm a = .ok yi →
      g ≤ 1024 →
      let tr := f.sub (f.mul s.wRe xr) (f.mul s.wIm xi)
      let ti := f.add (f.mul s.wRe xi) (f.mul s.wIm xr)
      ∃ t, exec .fftBfy s = .next t ∧ t = { s with re := t.re, im := t.im, fgrp := t.fgrp, seq := t.seq } ∧
        t.fgrp.toNat = g ∧ (1024 ≤ g → t.seq = .twn) ∧ (g < 1024 → t.seq = .bfy) ∧
        ∀ k,
          t.readRe k =
            (if k = a then .ok (f.add yr tr) else if k = b then .ok (f.sub yr tr) else s.readRe k) ∧
          t.readIm k =
            if k = a then .ok (f.add yi ti) else if k = b then .ok (f.sub yi ti) else s.readIm k) ∧
      (¬(s.seq = .bfy ∧ s.Idle) → exec .fftBfy s = .refused (.notEnabled .fftBfy))

/-- `FFT.TWN` (R161). -/
def Obligations.TwiddleRotatesAndMovesOn : Prop :=
  decodeWord 0x44000000 = .ok .fftTwn ∧ ∀ s : State,
    (s.seq = .twn ∧ s.Idle →
      let f := s.fmt
      let nr := f.sub (f.mul s.wRe s.cRe) (f.mul s.wIm s.cIm)
      let ni := f.add (f.mul s.wRe s.cIm) (f.mul s.wIm s.cRe)
      (s.fj.toNat + 1 < s.fhalf.toNat →
        exec .fftTwn s = .next { s with wRe := nr, wIm := ni, fj := s.fj + 1, fgrp := 0, seq := .bfy }) ∧
      (¬s.fj.toNat + 1 < s.fhalf.toNat → s.fstg.toNat < 10 →
        exec .fftTwn s = .next { s with wRe := nr, wIm := ni, fstg := s.fstg + 1, seq := .stg }) ∧
      (¬s.fj.toNat + 1 < s.fhalf.toNat → ¬s.fstg.toNat < 10 →
        exec .fftTwn s = .next { s with wRe := nr, wIm := ni, seq := .pki })) ∧
      (¬(s.seq = .twn ∧ s.Idle) → exec .fftTwn s = .refused (.notEnabled .fftTwn))

/-- `PK.INIT` (R164). -/
def Obligations.PeakSearchStartsAtBinOne : Prop :=
  decodeWord 0x45000000 = .ok .pkInit ∧ ∀ s : State,
    (s.seq = .pki ∧ s.Idle → ∀ x y, s.readRe 1 = .ok x → s.readIm 1 = .ok y → exec .pkInit s =
      .next { s with
        pkBin := 1, pkMag := s.fmt.add (s.fmt.mul x x) (s.fmt.mul y y), pkK := 2, seq := .pks }) ∧
      (¬(s.seq = .pki ∧ s.Idle) → exec .pkInit s = .refused (.notEnabled .pkInit))

/-- `PK.SCAN` (R165). The bin examined is at most 511, an invariant of the machine. -/
def Obligations.PeakScanKeepsTheStrictlyGreater : Prop :=
  decodeWord 0x46000000 = .ok .pkScan ∧ ∀ s : State,
    (s.seq = .pks ∧ s.Idle → s.pkK.toNat ≤ 511 → ∀ x y, s.readRe s.pkK.toNat = .ok x →
      s.readIm s.pkK.toNat = .ok y →
      let m := s.fmt.add (s.fmt.mul x x) (s.fmt.mul y y)
      ∃ t, exec .pkScan s = .next t ∧
        t = { s with pkBin := t.pkBin, pkMag := t.pkMag, pkK := t.pkK, seq := t.seq } ∧
        (s.fmt.gt m s.pkMag = true → t.pkMag = m ∧ t.pkBin.toNat = s.pkK.toNat) ∧
        (s.fmt.gt m s.pkMag = false → t.pkMag = s.pkMag ∧ t.pkBin = s.pkBin) ∧
        t.pkK.toNat = s.pkK.toNat + 1 ∧ (s.pkK.toNat = 511 → t.seq = .pkd) ∧
        (s.pkK.toNat ≠ 511 → t.seq = .pks)) ∧
      (¬(s.seq = .pks ∧ s.Idle) → exec .pkScan s = .refused (.notEnabled .pkScan))

/-- `PK.DONE` (R166). -/
def Obligations.PeakDeliversItsFrequency : Prop :=
  decodeWord 0x47000000 = .ok .pkDone ∧ ∀ s : State,
    (s.seq = .pkd ∧ s.Idle → ∃ t, exec .pkDone s = .next t ∧
      t = { s with domBin := s.pkBin, domFreqE4 := t.domFreqE4, seq := .qst } ∧
      t.domFreqE4.toNat = s.pkBin.toNat * 234375) ∧
      (¬(s.seq = .pkd ∧ s.Idle) → exec .pkDone s = .refused (.notEnabled .pkDone))

/-- The whole search finds, among bins 1 to 511, the lowest bin of largest squared magnitude, wherever no squared
magnitude is a NaN (R164, R165, R153). -/
def Obligations.PeakSearchFindsTheLowestMaximum : Prop :=
  ∀ (s : State) (m : Nat → FloatVal), s.seq = .pki → s.Idle → s.fmt = .binary32 →
    (∀ k, 1 ≤ k → k ≤ 511 → ∃ x y, s.readRe k = .ok x ∧ s.readIm k = .ok y ∧
      m k = b32Add (b32Mul x x) (b32Mul y y) ∧ b32IsNaN (m k) = false) →
    ∃ t, runOperations (.pkInit :: List.replicate 510 .pkScan) s = .next t ∧ t.seq = .pkd ∧
      1 ≤ t.pkBin.toNat ∧ t.pkMag = m t.pkBin.toNat ∧
      (∀ k, 1 ≤ k → k ≤ 511 → b32Gt (m k) (m t.pkBin.toNat) = false) ∧
      ∀ k, 1 ≤ k → k < t.pkBin.toNat → b32Gt (m t.pkBin.toNat) (m k) = true

end Analyzer

section Float

/-- `itof` is exact on every 16-bit sample, and `fgt` is the order of the real numbers, false on a NaN and between
zeros of either sign (R152). Values are counted in units of 2^-149. -/
def Obligations.ConversionIsExactAndComparisonIsReal : Prop :=
  (∀ v, v ≤ 65535 → FinitePattern (FloatFormat.binary32.ofNat v) ∧
    b32Value (FloatFormat.binary32.ofNat v) = v * 2 ^ 149) ∧
    (∀ a b, FinitePattern a → FinitePattern b →
      (FloatFormat.binary32.gt a b = true ↔ b32Value b < b32Value a)) ∧
    ∀ a b, b32IsNaN a = true ∨ b32IsNaN b = true → FloatFormat.binary32.gt a b = false

/-- `fadd` and `fsub` round the exact result once, to nearest, ties to even, and an exact zero from operands of
unlike sign, as of `x - x`, is `+0.0` (R151). -/
def Obligations.SumsRoundOnce : Prop :=
  ∀ a b, FinitePattern a → FinitePattern b →
    (InRange (b32Value a + b32Value b) 0 →
      IsRounding (b32Value a + b32Value b) 0 (FloatFormat.binary32.add a b)) ∧
      (InRange (b32Value a - b32Value b) 0 →
        IsRounding (b32Value a - b32Value b) 0 (FloatFormat.binary32.sub a b)) ∧
      (b32Value a + b32Value b = 0 → b32Sign a ≠ b32Sign b → FloatFormat.binary32.add a b = 0) ∧
      FloatFormat.binary32.sub a a = 0

/-- `fmul` rounds the exact product once, to nearest, ties to even, and a product with a zero is `-0.0` exactly when
one factor is negative (R151). -/
def Obligations.ProductsRoundOnce : Prop :=
  ∀ a b, FinitePattern a → FinitePattern b →
    (InRange (b32Value a * b32Value b) 149 →
      IsRounding (b32Value a * b32Value b) 149 (FloatFormat.binary32.mul a b)) ∧
      (b32Value a = 0 ∨ b32Value b = 0 →
        FloatFormat.binary32.mul a b = if b32Sign a = b32Sign b then 0 else 0x80000000)

end Float

section Quantizer

/-- `QNT.START` (R181). -/
def Obligations.QuantizerLatchesItsInput : Prop :=
  decodeWord 0x50000000 = .ok .qntStart ∧ ∀ s : State,
    (s.seq = .qst ∧ s.Idle → ∃ t, exec .qntStart s = .next t ∧
      t = { s with qIn := s.domFreqE4, qF := s.domFreqE4, qOct := 0, seq := .qrd, valued := t.valued }) ∧
      (¬(s.seq = .qst ∧ s.Idle) → exec .qntStart s = .refused (.notEnabled .qntStart))

/-- `QNT.RED` (R182). The count is at most 14, an invariant of the machine. -/
def Obligations.ReductionHalvesOrLeaves : Prop :=
  decodeWord 0x51000000 = .ok .qntRed ∧ ∀ s : State,
    (s.seq = .qrd ∧ s.Idle →
      (317900 < s.qF.toNat → s.qOct.toNat ≤ 14 → ∃ t, exec .qntRed s = .next t ∧
        t = { s with qF := t.qF, qOct := t.qOct } ∧ t.qF.toNat = s.qF.toNat / 2 ∧
        t.qOct.toNat = s.qOct.toNat + 1) ∧
      (s.qF.toNat ≤ 317900 → ∀ v, s.readNote 0 0 = .ok v → ∃ t, exec .qntRed s = .next t ∧
        t = { s with qBest := 0, qBdiff := t.qBdiff, qN := 1, seq := .qcm } ∧
        t.qBdiff.toNat = ((s.qF.toNat : Int) - v.toNat).natAbs)) ∧
      (¬(s.seq = .qrd ∧ s.Idle) → exec .qntRed s = .refused (.notEnabled .qntRed))

/-- `QNT.CMP` (R183): only a strictly nearer note replaces the best. -/
def Obligations.ComparisonKeepsTheFirstNearest : Prop :=
  decodeWord 0x52000000 = .ok .qntCmp ∧ ∀ s : State,
    (s.seq = .qcm ∧ s.Idle → ∀ v, s.readNote 0 s.qN.toNat = .ok v →
      let d := ((s.qF.toNat : Int) - v.toNat).natAbs
      ∃ t, exec .qntCmp s = .next t ∧
        t = { s with qBdiff := t.qBdiff, qBest := t.qBest, qN := t.qN, seq := t.seq } ∧
        (d < s.qBdiff.toNat → t.qBdiff.toNat = d ∧ t.qBest = s.qN) ∧
        (¬d < s.qBdiff.toNat → t.qBdiff = s.qBdiff ∧ t.qBest = s.qBest) ∧
        t.qN.toNat = s.qN.toNat + 1 ∧ (s.qN.toNat = 11 → t.seq = .qout) ∧ (s.qN.toNat ≠ 11 → t.seq = .qcm)) ∧
      (¬(s.seq = .qcm ∧ s.Idle) → exec .qntCmp s = .refused (.notEnabled .qntCmp))

/-- `QNT.OUT` (R185): an octave above the table is clamped to 8 and recorded in `STATUS`. -/
def Obligations.ResultIsClampedToTheTable : Prop :=
  decodeWord 0x53000000 = .ok .qntOut ∧ ∀ s : State,
    (s.seq = .qout ∧ s.Idle → ∀ l v, s.readLabel s.qBest.toNat = .ok l →
      (9 ≤ s.qOct.toNat → s.readNote 8 s.qBest.toNat = .ok v → exec .qntOut s =
        .next { s with qLabel := l, qFreq := v, status := s.status ||| 0b1000, seq := .pub }) ∧
      (s.qOct.toNat < 9 → s.readNote s.qOct.toNat s.qBest.toNat = .ok v → exec .qntOut s =
        .next { s with qLabel := l, qFreq := v, seq := .pub })) ∧
      (¬(s.seq = .qout ∧ s.Idle) → exec .qntOut s = .refused (.notEnabled .qntOut))

/-- The quantizer as a function of its input `f` (R186): `k` is the least number of halvings to the threshold, `n`
the first note of octave 0 nearest to the reduced input. -/
def Obligations.QuantizerHasItsClosedForm : Prop :=
  ∀ s : State, s.seq = .qst → s.Idle → s.TablesLoaded →
    let f := s.domFreqE4.toNat
    let note := fun o n => (s.cfg.val.noteTable.getD (12 * o + n) 0).toNat
    ∃ (k n : Nat) (t : State), f / 2 ^ k ≤ 317900 ∧ (∀ j, j < k → 317900 < f / 2 ^ j) ∧ n < 12 ∧
      (∀ m, m < 12 → (((f / 2 ^ k : Nat) : Int) - note 0 n).natAbs ≤ (((f / 2 ^ k : Nat) : Int) - note 0 m).natAbs) ∧
      (∀ m, m < n → (((f / 2 ^ k : Nat) : Int) - note 0 n).natAbs < (((f / 2 ^ k : Nat) : Int) - note 0 m).natAbs) ∧
      runOperations (qntRunOperations k) s = .next t ∧ t.seq = .pub ∧ t.qOct.toNat = k ∧ t.qBest.toNat = n ∧
      t.qLabel = s.cfg.val.labelTable.getD n 0 ∧ t.qFreq.toNat = note (min k 8) n ∧
      t.status = if 9 ≤ k then s.status ||| 0b1000 else s.status

/-- Every entry of the Note Table comes back as itself, with its own label and octave and no fault (R187 (a)). -/
def Obligations.QuantizerReturnsTableEntries : Prop :=
  ∀ (s : State) (o n : Nat), s.seq = .qst → s.Idle → s.TablesLoaded → o < 9 → n < 12 →
    s.domFreqE4 = s.cfg.val.noteTable.getD (12 * o + n) 0 →
    ∃ t, runOperations (qntRunOperations o) s = .next t ∧ t.qOct.toNat = o ∧
      t.qLabel = s.cfg.val.labelTable.getD n 0 ∧ t.qFreq = s.domFreqE4 ∧ t.status = s.status

end Quantizer

section WholeMachine

/-- A foreground operation is enabled exactly in the phase R22 gives it, and only while no tick is pending and no
handler active (R247). For `ORCH.PUB` inside a synthesis activation this takes R247's side against R223 (c) and R306,
the model's choice (log 22). -/
def Obligations.ForegroundRunsItsPhaseAlone : Prop :=
  ∀ (s : State) (i : Instr), i.agent = .fg → (enabled i s = true ↔
    s.acqPend = false ∧ s.acqAct = false ∧ s.synPend = false ∧ s.synAct = false ∧
      (s.seq.code.toNat, i) ∈ [(0, Instr.orchInit), (1, .orchPoll), (2, .fftLoad), (3, .fftRev), (4, .fftStg),
        (5, .fftBfy), (6, .fftTwn), (7, .pkInit), (8, .pkScan), (9, .pkDone), (10, .qntStart), (11, .qntRed),
        (12, .qntCmp), (13, .qntOut), (14, .orchPub)])

/-- `SEQ` changes only by a foreground operation, or a reset, and only along the graph of R22 (R224). -/
def Obligations.SequencerFollowsItsGraph : Prop :=
  ∀ (i : Instr) (s t : State), exec i s = .next t →
    i = .envReset ∨ (i.agent ≠ .fg ∧ t.seq = s.seq) ∨
      (i.agent = .fg ∧ (s.seq.code.toNat, t.seq.code.toNat) ∈ [(0, 1), (1, 1), (1, 2), (2, 2), (2, 3), (3, 3),
        (3, 4), (4, 5), (5, 5), (5, 6), (6, 5), (6, 4), (6, 7), (7, 8), (8, 8), (8, 9), (9, 10), (10, 11), (11, 11),
        (11, 12), (12, 12), (12, 13), (13, 14), (14, 1)])

/-- No operation but a reset clears a bit of `STATUS`, and each bit is set by its one operation under its one
condition (R37, R240). -/
def Obligations.StatusBitsAreSticky : Prop :=
  ∀ (i : Instr) (s t : State), exec i s = .next t → i ≠ .envReset →
    ∀ b, t.status.getLsbD b = (s.status.getLsbD b ||
      (decide (b = 0) && decide (i = .acqWait) && s.cfg.val.acqWaitMax.any fun m => decide (m ≤ t.acqWcnt.toNat)) ||
      (decide (b = 1) && decide (i = .envAtick) && s.acqPend) ||
      (decide (b = 2) && decide (i = .envStick) && s.synPend) ||
      (decide (b = 3) && decide (i = .qntOut) && decide (9 ≤ s.qOct.toNat)))

/-- Each register is written only by the operations in its "written by" column (R20). -/
def Obligations.RegistersAreWrittenByTheirOwners : Prop :=
  ∀ (i : Instr) (s t : State), exec i s = .next t → i ≠ .envReset →
    (i ≠ .acqStore → t.wrIdx = s.wrIdx) ∧
    ((∀ v, i ≠ .envEoc v) → t.adcDr = s.adcDr) ∧
    ((∀ v, i ≠ .envEoc v) → i ≠ .acqStore → t.adcEoc = s.adcEoc) ∧
    (i ∉ [.envAtick, .acqEnter] → t.acqPend = s.acqPend) ∧
    (i ∉ [.acqEnter, .acqWait, .acqStore] → t.acqAct = s.acqAct) ∧
    (i ∉ [.acqEnter, .acqWait] → t.acqWcnt = s.acqWcnt) ∧
    (i ∉ [.orchPoll, .fftLoad, .fftRev] → t.fi = s.fi) ∧
    (i ∉ [.fftLoad, .fftRev, .fftStg, .fftTwn] → t.fj = s.fj) ∧
    (i ∉ [.fftRev, .fftTwn] → t.fstg = s.fstg) ∧
    (i ≠ .fftStg → t.fhalf = s.fhalf ∧ t.cRe = s.cRe ∧ t.cIm = s.cIm) ∧
    (i ∉ [.fftStg, .fftBfy, .fftTwn] → t.fgrp = s.fgrp) ∧
    (i ∉ [.fftStg, .fftTwn] → t.wRe = s.wRe ∧ t.wIm = s.wIm) ∧
    (i ∉ [.pkInit, .pkScan] → t.pkK = s.pkK ∧ t.pkBin = s.pkBin ∧ t.pkMag = s.pkMag) ∧
    (i ≠ .pkDone → t.domBin = s.domBin ∧ t.domFreqE4 = s.domFreqE4) ∧
    (i ≠ .qntStart → t.qIn = s.qIn) ∧
    (i ∉ [.qntStart, .qntRed] → t.qF = s.qF ∧ t.qOct = s.qOct) ∧
    (i ∉ [.qntRed, .qntCmp] → t.qN = s.qN ∧ t.qBest = s.qBest ∧ t.qBdiff = s.qBdiff) ∧
    (i ≠ .qntOut → t.qLabel = s.qLabel ∧ t.qFreq = s.qFreq) ∧
    (i ≠ .orchPub → t.tuneLabel = s.tuneLabel ∧ t.tuneFreq = s.tuneFreq) ∧
    (i ≠ .synStep → t.osc.map Oscillator.inc = s.osc.map Oscillator.inc) ∧
    (i ∉ [.synStep, .synAdv] → t.osc = s.osc) ∧
    (i ∉ [.envStick, .synEnter] → t.synPend = s.synPend) ∧
    (i ∉ [.synEnter, .synOut] → t.synAct = s.synAct) ∧
    (i.agent ≠ .syn → t.synPh = s.synPh) ∧
    (i ≠ .synMix → t.synAcc = s.synAcc) ∧
    (i ≠ .synOut → t.dacOut = s.dacOut)

/-- The model's own fields: no operation but a reset touches the configuration, the trace or the counter of free
values (logs 1, 8), `SYN.OUT` alone extends the output stream (log 15), and each port register is known to hold a
value from its first write on (log 7). -/
def Obligations.OwnFieldsRecordTheRun : Prop :=
  ∀ (i : Instr) (s t : State), exec i s = .next t → i ≠ .envReset →
    t.cfg = s.cfg ∧ t.trace = s.trace ∧ t.draws = s.draws ∧
    t.dacStream = (if i = .synOut then t.dacOut :: s.dacStream else s.dacStream) ∧
    ((∃ v, i = .envEoc v) → t.valued.adcDr = true) ∧
    ((∀ v, i ≠ .envEoc v) → t.valued.adcDr = s.valued.adcDr) ∧
    t.valued.qIn = (s.valued.qIn || decide (i = .qntStart)) ∧
    t.valued.synAcc = (s.valued.synAcc || decide (i = .synMix)) ∧
    t.valued.dacOut = (s.valued.dacOut || decide (i = .synOut))

/-- Each memory is written only by the operations in its "written by" column; the look-up tables are written by
`ORCH.INIT` only (R70, R85). -/
def Obligations.MemoriesAreWrittenByTheirOwners : Prop :=
  ∀ (i : Instr) (s t : State), exec i s = .next t → i ≠ .envReset →
    (i ≠ .acqStore → ∀ k, t.readSamp k = s.readSamp k) ∧
    (i ≠ .orchPoll → ∀ k, t.readSnap k = s.readSnap k) ∧
    (i ∉ [.fftLoad, .fftRev, .fftBfy] → ∀ k, t.readRe k = s.readRe k ∧ t.readIm k = s.readIm k) ∧
    (i ≠ .orchInit → (∀ o n, t.readNote o n = s.readNote o n) ∧ (∀ n, t.readLabel n = s.readLabel n) ∧
      ∀ k, t.readWave k = s.readWave k)

/-- Any interleaving of acquisition and synthesis operations ends in the state in which all of the acquisition's go
first (R248). -/
def Obligations.HandlersCommute : Prop :=
  ∀ (ops : List Instr) (s t : State), (∀ i ∈ ops, i.agent = .acq ∨ i.agent = .syn) →
    (runOperations ops s = .next t ↔
      runOperations (ops.filter (fun i => decide (i.agent = .acq)) ++
        ops.filter (fun i => decide (i.agent = .syn))) s = .next t)

/-- The state after reset meets the invariant, with every memory in canonical form; the form is the model's choice
(log 4). -/
def Obligations.ResetMeetsTheInvariant : Prop :=
  State.reset.Inv ∧ State.reset.Canonical

/-- Every step from a state that meets the invariant ends in one that does, in the same configuration. -/
def Obligations.StepKeepsTheInvariant : Prop :=
  ∀ s t : State, s.Inv → step s = .next t → t.Inv ∧ t.cfg = s.cfg

/-- Every step keeps every memory in canonical form; the form is the model's choice (log 4). -/
def Obligations.StepKeepsMemoriesCanonical : Prop :=
  ∀ s t : State, s.Canonical → step s = .next t → t.Canonical

/-- Under the invariant every enabled operation has its effect: no read of an element without a value, no index
outside a memory, no endless walk (R73, R51, R242). -/
def Obligations.EnabledOperationsComplete : Prop :=
  ∀ (i : Instr) (s : State), s.Inv → enabled i s = true → ∃ t, exec i s = .next t

/-- The observation port gives each register by its number, zero past the table, and each word byte by byte, least
significant first (R38, R74 (b)). `IRQ` has the bits of R38's table (log 21), and a register without a value is left
open (log 7). -/
def Obligations.PortGivesRegistersByNumber : Prop :=
  ∀ s : State,
    s.portWord 0 = s.status.setWidth 32 ∧
    (∀ b, (s.portWord 1).getLsbD b = ((decide (b = 0) && s.acqPend) || (decide (b = 1) && s.acqAct) ||
      (decide (b = 2) && s.synPend) || (decide (b = 3) && s.synAct) || (decide (b = 4) && s.adcEoc) ||
      (decide (5 ≤ b) && s.synPh.code.getLsbD (b - 5)))) ∧
    s.portWord 2 = s.seq.code.setWidth 32 ∧ s.portWord 3 = s.wrIdx.setWidth 32 ∧
    (s.valued.adcDr = true → s.portWord 4 = s.adcDr.setWidth 32) ∧
    s.portWord 5 = s.domBin.setWidth 32 ∧ s.portWord 6 = s.domFreqE4 ∧ s.portWord 7 = s.qOct.setWidth 32 ∧
    s.portWord 8 = s.tuneLabel.setWidth 32 ∧ s.portWord 9 = s.tuneFreq ∧
    (s.valued.dacOut = true → s.portWord 10 = s.dacOut.setWidth 32) ∧
    (s.valued.qIn = true → s.portWord 11 = s.qIn) ∧ (s.valued.synAcc = true → s.portWord 12 = s.synAcc) ∧
    (∀ r, 13 ≤ r → r ≤ 15 → s.portWord r = 0) ∧
    (∀ c o, s.osc[c]? = some o → s.portWord (16 + 2 * c) = o.inc ∧ s.portWord (17 + 2 * c) = o.acc) ∧
    (∀ r, 16 + 2 * s.osc.length ≤ r → s.portWord r = 0) ∧
    ∀ r, (s.portWord r).toNat = (s.portByte (4 * r)).toNat + 2 ^ 8 * (s.portByte (4 * r + 1)).toNat +
      2 ^ 16 * (s.portByte (4 * r + 2)).toNat + 2 ^ 24 * (s.portByte (4 * r + 3)).toNat

end WholeMachine
end

