-- ==== Sys2Proof/Laws/Decode.lean ====
section
/-! SUPPORT. The small lemmas of the decoder and the encoder. -/

namespace Sys2Proof

/-- An operation of format `E0` has the operation number it is decoded from, and no operand. -/
theorem plainOp_some {n : Nat} {i : Instr} (h : plainOp n = some i) : opNumber i = n ∧ operandField i = 0 := by
  unfold plainOp at h
  split at h <;> first | (cases h; exact ⟨rfl, rfl⟩) | cases h

/-- Joining the bytes of a word gives the word. -/
theorem joinBytes_wordBytes (w : Word) :
    joinBytes (BitVec.ofNat 8 w.toNat) (BitVec.ofNat 8 (w.toNat / 2 ^ 8)) (BitVec.ofNat 8 (w.toNat / 2 ^ 16))
      (BitVec.ofNat 8 (w.toNat / 2 ^ 24)) = w := by
  apply BitVec.eq_of_toNat_eq
  have hlt := w.isLt
  simp only [joinBytes, BitVec.toNat_ofNat]
  generalize w.toNat = n at *
  omega

theorem opNumber_lt (i : Instr) : opNumber i < 2 ^ 8 := by
  cases i <;> simp [opNumber]

theorem operandField_lt (i : Instr) : operandField i < 2 ^ 16 := by
  cases i with
  | envEoc v => exact v.isLt
  | _ => decide

/-- An operation's word as a number. -/
theorem encodeWord_toNat (i : Instr) : (encodeWord i).toNat = opNumber i * 2 ^ 24 + operandField i := by
  have h1 := opNumber_lt i
  have h2 := operandField_lt i
  rw [encodeWord, BitVec.toNat_ofNat, Nat.mod_eq_of_lt (by omega)]

end Sys2Proof
end

