-- ==== Sys2Proof/Laws/Float.lean ====
section
/-! SUPPORT. Every function of the number format gives a value of the format, whatever its operands, and so does every
entry of a valid configuration's `TW`. What R152 says of `fgt` and `itof` in a format other than binary32. -/

namespace Sys2Proof

variable {f : FloatFormat}

theorem isValue_binary32 {c : FloatVal} : FloatFormat.binary32.isValue c = true ↔ c < 2 ^ 32 :=
  iff_of_eq Nat.blt_eq

theorem b32Pattern_lt {n : Bool} {m : Nat} (h : m < 2 ^ 31) : b32Pattern n m < 2 ^ 32 := by
  cases n
  · exact lt_trans h (by decide)
  · exact Nat.add_lt_add_left h (2 ^ 31)

theorem b32Infinity_lt : b32Infinity < 2 ^ 31 := by decide

theorem b32RoundMagnitude_lt (mag shift : Nat) : b32RoundMagnitude mag shift < 2 ^ 31 :=
  lt_of_le_of_lt (Nat.min_le_right _ _) b32Infinity_lt

theorem b32NaN_lt (a b : FloatVal) : b32NaN a b < 2 ^ 32 :=
  lt_trans (Nat.add_lt_add_left (Nat.mod_lt _ (by decide)) 0x7FC00000) (by decide)

theorem b32AddFinite_lt (a b : FloatVal) : b32AddFinite a b < 2 ^ 32 := by
  simp only [b32AddFinite]
  split
  · exact b32Pattern_lt (by decide)
  · exact b32Pattern_lt (b32RoundMagnitude_lt _ _)

theorem b32Add_lt (a b : FloatVal) : b32Add a b < 2 ^ 32 := by
  unfold b32Add
  repeat' split
  all_goals first
    | exact b32NaN_lt a b
    | exact b32Pattern_lt b32Infinity_lt
    | exact b32AddFinite_lt a b

theorem b32Sub_lt (a b : FloatVal) : b32Sub a b < 2 ^ 32 := by
  unfold b32Sub
  split
  · exact b32NaN_lt a b
  · exact b32Add_lt _ _

theorem b32Mul_lt (a b : FloatVal) : b32Mul a b < 2 ^ 32 := by
  unfold b32Mul
  repeat' split
  all_goals first
    | exact b32NaN_lt a b
    | exact b32Pattern_lt b32Infinity_lt
    | exact b32Pattern_lt (b32RoundMagnitude_lt _ _)

theorem isValue_add (a b : FloatVal) : f.isValue (f.add a b) = true := by
  cases f
  · exact isValue_binary32.2 (b32Add_lt a b)
  · rfl

theorem isValue_sub (a b : FloatVal) : f.isValue (f.sub a b) = true := by
  cases f
  · exact isValue_binary32.2 (b32Sub_lt a b)
  · rfl

theorem isValue_mul (a b : FloatVal) : f.isValue (f.mul a b) = true := by
  cases f
  · exact isValue_binary32.2 (b32Mul_lt a b)
  · rfl

theorem isValue_ofNat (v : Nat) : f.isValue (f.ofNat v) = true := by
  cases f
  · exact isValue_binary32.2 (lt_trans (b32RoundMagnitude_lt _ _) (by decide))
  · rfl

/-- What a valid configuration says about the twiddle increments (10_state.md R47). -/
theorem isValue_twiddle {c : Config} (h : c.valid = true) {n : Nat} {p : FloatVal × FloatVal}
    (hp : c.twiddle n = some p) : c.float.isValue p.1 = true ∧ c.float.isValue p.2 = true := by
  simp only [Config.valid, twiddlesValid, Bool.and_eq_true, List.all_eq_true] at h
  unfold Config.twiddle at hp
  split at hp
  · cases hp
  · exact h.1.1.1.1.1.2.2 p (List.mem_of_getElem? hp)

section Other

variable {k : Nat} {a b : FloatVal}

theorem otherGt_iff : (FloatFormat.other k).gt a b = true ↔
    otherIsNaN k a = false ∧ otherIsNaN k b = false ∧ otherValue k b < otherValue k a := by
  simp only [FloatFormat.gt, otherGt, Bool.and_eq_true, Bool.not_eq_true', decide_eq_true_eq, and_assoc]

/-- A comparison with a NaN is false. -/
theorem otherGt_nan (h : otherIsNaN k a = true ∨ otherIsNaN k b = true) :
    (FloatFormat.other k).gt a b = false := by
  rw [← Bool.not_eq_true, otherGt_iff]
  rintro ⟨ha, hb, -⟩
  simp [ha, hb] at h

/-- Equal numbers, zeros of either sign among them, are not greater than one another. -/
theorem otherGt_eq (h : otherValue k a = otherValue k b) : (FloatFormat.other k).gt a b = false := by
  rw [← Bool.not_eq_true, otherGt_iff]
  rintro ⟨-, -, hlt⟩
  exact absurd (h ▸ hlt) (lt_irrefl _)

/-- `itof` is exact on every 16-bit sample. -/
theorem otherValue_ofNat {v : Nat} (h : v ≤ 65535) :
    otherIsNaN k ((FloatFormat.other k).ofNat v) = false ∧ otherValue k ((FloatFormat.other k).ofNat v) = v := by
  simp [FloatFormat.ofNat, otherIsNaN, otherValue, Nat.ble_eq_true_of_le h, h]

end Other

end Sys2Proof
end

