-- ==== Sys2Proof/Laws/Memory.lean ====
section
/-! SUPPORT. The laws of an element-addressed memory: what a read gives after a write, after filling from a list
or a function, and that every operation keeps the canonical form. -/

namespace Sys2Proof

variable {α : Type}

theorem Memory.lookup_insert_self (m : Memory α) (i : Nat) (v : α) :
    Memory.lookup (Memory.insert m i v) i = some v := by
  induction m with
  | nil => simp [Memory.insert, Memory.lookup]
  | cons c m ih =>
    obtain ⟨j, w⟩ := c
    simp only [Memory.insert]
    split
    · simp [Memory.lookup]
    · split
      · simp [Memory.lookup]
      · rename_i h1 h2
        simp only [Memory.lookup, if_neg (Ne.symm h2), ih]

theorem Memory.lookup_insert_other (m : Memory α) {i j : Nat} (v : α) (h : j ≠ i) :
    Memory.lookup (Memory.insert m i v) j = Memory.lookup m j := by
  induction m with
  | nil => simp [Memory.insert, Memory.lookup, h.symm]
  | cons c m ih =>
    obtain ⟨k, w⟩ := c
    simp only [Memory.insert]
    split
    · simp [Memory.lookup, h.symm]
    · split
      · rename_i _ hk
        subst hk
        simp [Memory.lookup, h.symm]
      · simp only [Memory.lookup, ih]

theorem Memory.lookup_erase_other (m : Memory α) {i j : Nat} (h : j ≠ i) :
    Memory.lookup (Memory.erase m i) j = Memory.lookup m j := by
  induction m with
  | nil => rfl
  | cons c m ih =>
    obtain ⟨k, w⟩ := c
    simp only [Memory.erase]
    split
    · rename_i hk
      subst hk
      simp [Memory.lookup, h.symm]
    · simp only [Memory.lookup, ih]

section Canonical

variable [DecidableEq α] {size : Nat} {initial : Nat → Option α}

theorem Memory.wfFrom_cons (lo j : Nat) (v : α) (m : Memory α) :
    Memory.wfFrom size initial lo ((j, v) :: m) = true ↔
      lo ≤ j ∧ j < size ∧ initial j ≠ some v ∧ Memory.wfFrom size initial (j + 1) m = true := by
  simp [Memory.wfFrom, and_assoc]

theorem Memory.wfFrom_mono {lo lo' : Nat} (m : Memory α) (h : lo' ≤ lo)
    (hw : Memory.wfFrom size initial lo m = true) : Memory.wfFrom size initial lo' m = true := by
  cases m with
  | nil => rfl
  | cons c m =>
    obtain ⟨j, v⟩ := c
    rw [Memory.wfFrom_cons] at hw ⊢
    exact ⟨h.trans hw.1, hw.2⟩

theorem Memory.lookup_below {lo : Nat} (m : Memory α) (hw : Memory.wfFrom size initial lo m = true) {i : Nat}
    (h : i < lo) : Memory.lookup m i = none := by
  induction m generalizing lo with
  | nil => rfl
  | cons c m ih =>
    obtain ⟨j, v⟩ := c
    rw [Memory.wfFrom_cons] at hw
    have hj : j ≠ i := by omega
    simp only [Memory.lookup, if_neg hj]
    exact ih hw.2.2.2 (by omega)

theorem Memory.lookup_erase_self {lo : Nat} (m : Memory α) (hw : Memory.wfFrom size initial lo m = true) (i : Nat) :
    Memory.lookup (Memory.erase m i) i = none := by
  induction m generalizing lo with
  | nil => rfl
  | cons c m ih =>
    obtain ⟨j, v⟩ := c
    rw [Memory.wfFrom_cons] at hw
    simp only [Memory.erase]
    split
    · rename_i hj
      exact Memory.lookup_below m hw.2.2.2 (by omega)
    · rename_i hj
      simp only [Memory.lookup, if_neg hj]
      exact ih hw.2.2.2

/-- Reading the element just written gives the value written. -/
theorem Memory.read_write_same (m : Memory α) (hw : Memory.wf size initial m = true) (i : Nat) (v : α) :
    Memory.read initial (Memory.write initial m i v) i = some v := by
  by_cases h : initial i = some v
  · simp only [Memory.read, Memory.write, if_pos h, Memory.lookup_erase_self m hw]
    exact h
  · simp only [Memory.read, Memory.write, if_neg h, Memory.lookup_insert_self]

/-- Writing an element leaves every other as it was. -/
theorem Memory.read_write_other (m : Memory α) {i j : Nat} (v : α) (h : j ≠ i) :
    Memory.read initial (Memory.write initial m i v) j = Memory.read initial m j := by
  by_cases hi : initial i = some v
  · simp only [Memory.read, Memory.write, if_pos hi, Memory.lookup_erase_other m h]
  · simp only [Memory.read, Memory.write, if_neg hi, Memory.lookup_insert_other m v h]

theorem Memory.wfFrom_insert {lo : Nat} (m : Memory α) (hw : Memory.wfFrom size initial lo m = true) {i : Nat}
    {v : α} (hlo : lo ≤ i) (hi : i < size) (hv : initial i ≠ some v) :
    Memory.wfFrom size initial lo (Memory.insert m i v) = true := by
  induction m generalizing lo with
  | nil => exact (Memory.wfFrom_cons lo i v []).2 ⟨hlo, hi, hv, rfl⟩
  | cons c m ih =>
    obtain ⟨j, w⟩ := c
    have hc := (Memory.wfFrom_cons lo j w m).1 hw
    simp only [Memory.insert]
    split
    · rename_i hij
      exact (Memory.wfFrom_cons _ _ _ _).2
        ⟨hlo, hi, hv, (Memory.wfFrom_cons _ _ _ _).2 ⟨hij, hc.2.1, hc.2.2⟩⟩
    · split
      · rename_i _ hij
        subst hij
        exact (Memory.wfFrom_cons _ _ _ _).2 ⟨hlo, hi, hv, hc.2.2.2⟩
      · exact (Memory.wfFrom_cons _ _ _ _).2 ⟨hc.1, hc.2.1, hc.2.2.1, ih hc.2.2.2 (by omega)⟩

theorem Memory.wfFrom_erase {lo : Nat} (m : Memory α) (hw : Memory.wfFrom size initial lo m = true) (i : Nat) :
    Memory.wfFrom size initial lo (Memory.erase m i) = true := by
  induction m generalizing lo with
  | nil => rfl
  | cons c m ih =>
    obtain ⟨j, w⟩ := c
    have hc := (Memory.wfFrom_cons lo j w m).1 hw
    simp only [Memory.erase]
    split
    · exact Memory.wfFrom_mono m (by omega) hc.2.2.2
    · exact (Memory.wfFrom_cons _ _ _ _).2 ⟨hc.1, hc.2.1, hc.2.2.1, ih hc.2.2.2⟩

/-- A write keeps the canonical form. -/
theorem Memory.wf_write (m : Memory α) (hw : Memory.wf size initial m = true) {i : Nat} (hi : i < size) (v : α) :
    Memory.wf size initial (Memory.write initial m i v) = true := by
  unfold Memory.wf at hw ⊢
  unfold Memory.write
  split
  · exact Memory.wfFrom_erase m hw i
  · exact Memory.wfFrom_insert m hw (Nat.zero_le i) hi ‹_›

theorem Memory.wfFrom_ofListFrom (vs : List α) (i : Nat) (h : i + vs.length ≤ size) :
    Memory.wfFrom size (fun _ => none) i (Memory.ofListFrom i vs) = true := by
  induction vs generalizing i with
  | nil => rfl
  | cons v vs ih =>
    simp only [List.length_cons] at h
    exact (Memory.wfFrom_cons _ _ _ _).2 ⟨Nat.le_refl i, by omega, by simp, ih (i + 1) (by omega)⟩

theorem Memory.wfFrom_tabulateFrom (f : Nat → α) (n i : Nat) (h : i + n ≤ size) :
    Memory.wfFrom size (fun _ => none) i (Memory.tabulateFrom f n i) = true := by
  induction n generalizing i with
  | zero => rfl
  | succ n ih =>
    exact (Memory.wfFrom_cons _ _ _ _).2 ⟨Nat.le_refl i, by omega, by simp, ih (i + 1) (by omega)⟩

/-- A memory filled from a list is canonical. -/
theorem Memory.wf_ofList (vs : List α) (h : vs.length ≤ size) :
    Memory.wf size (fun _ => none) (Memory.ofList vs) = true :=
  Memory.wfFrom_ofListFrom vs 0 (by omega)

/-- A memory filled from a function is canonical. -/
theorem Memory.wf_tabulate (f : Nat → α) (n : Nat) (h : n ≤ size) :
    Memory.wf size (fun _ => none) (Memory.tabulate n f) = true :=
  Memory.wfFrom_tabulateFrom f n 0 (by omega)

end Canonical

theorem Memory.lookup_ofListFrom (vs : List α) (lo i : Nat) :
    Memory.lookup (Memory.ofListFrom lo vs) i = if lo ≤ i then vs[i - lo]? else none := by
  induction vs generalizing lo with
  | nil => simp [Memory.ofListFrom, Memory.lookup]
  | cons v vs ih =>
    simp only [Memory.ofListFrom, Memory.lookup, ih]
    by_cases h : lo = i
    · simp [h]
    · rw [if_neg h]
      by_cases h2 : lo ≤ i
      · obtain ⟨d, rfl⟩ : ∃ d, i = lo + 1 + d := ⟨i - (lo + 1), by omega⟩
        rw [if_pos (by omega), if_pos h2, show lo + 1 + d - lo = d + 1 by omega,
          show lo + 1 + d - (lo + 1) = d by omega, List.getElem?_cons_succ]
      · rw [if_neg (by omega), if_neg h2]

/-- What a memory filled from a list lists. -/
theorem Memory.lookup_ofList (vs : List α) (i : Nat) : Memory.lookup (Memory.ofList vs) i = vs[i]? := by
  simp [Memory.ofList, Memory.lookup_ofListFrom]

theorem Memory.lookup_tabulateFrom (f : Nat → α) (n lo i : Nat) :
    Memory.lookup (Memory.tabulateFrom f n lo) i = if lo ≤ i ∧ i < lo + n then some (f i) else none := by
  induction n generalizing lo with
  | zero =>
    rw [if_neg (by omega)]
    rfl
  | succ n ih =>
    simp only [Memory.tabulateFrom, Memory.lookup, ih]
    by_cases h : lo = i
    · subst h
      simp
    · rw [if_neg h]
      by_cases h2 : lo ≤ i ∧ i < lo + (n + 1)
      · rw [if_pos h2, if_pos (by omega)]
      · rw [if_neg h2, if_neg (by omega)]

/-- What a memory filled from a function lists. -/
theorem Memory.lookup_tabulate (f : Nat → α) (n i : Nat) :
    Memory.lookup (Memory.tabulate n f) i = if i < n then some (f i) else none := by
  simp [Memory.tabulate, Memory.lookup_tabulateFrom]

end Sys2Proof
end

