-- ==== Sys2Proof/Laws/State.lean ====
section
/-! SUPPORT. Every field of the state after every named update: one lemma each, so that no proof unfolds an
update. -/

namespace Sys2Proof.Machine

variable (s : State)

section Raise
variable (x : FaultCode)

@[simp] theorem State.raise_cfg : (s.raise x).cfg = s.cfg := rfl
@[simp] theorem State.raise_seq : (s.raise x).seq = s.seq := rfl
@[simp] theorem State.raise_wrIdx : (s.raise x).wrIdx = s.wrIdx := rfl
@[simp] theorem State.raise_adcDr : (s.raise x).adcDr = s.adcDr := rfl
@[simp] theorem State.raise_adcEoc : (s.raise x).adcEoc = s.adcEoc := rfl
@[simp] theorem State.raise_acqPend : (s.raise x).acqPend = s.acqPend := rfl
@[simp] theorem State.raise_acqAct : (s.raise x).acqAct = s.acqAct := rfl
@[simp] theorem State.raise_acqWcnt : (s.raise x).acqWcnt = s.acqWcnt := rfl
@[simp] theorem State.raise_fi : (s.raise x).fi = s.fi := rfl
@[simp] theorem State.raise_fj : (s.raise x).fj = s.fj := rfl
@[simp] theorem State.raise_fstg : (s.raise x).fstg = s.fstg := rfl
@[simp] theorem State.raise_fhalf : (s.raise x).fhalf = s.fhalf := rfl
@[simp] theorem State.raise_fgrp : (s.raise x).fgrp = s.fgrp := rfl
@[simp] theorem State.raise_wRe : (s.raise x).wRe = s.wRe := rfl
@[simp] theorem State.raise_wIm : (s.raise x).wIm = s.wIm := rfl
@[simp] theorem State.raise_cRe : (s.raise x).cRe = s.cRe := rfl
@[simp] theorem State.raise_cIm : (s.raise x).cIm = s.cIm := rfl
@[simp] theorem State.raise_pkK : (s.raise x).pkK = s.pkK := rfl
@[simp] theorem State.raise_pkBin : (s.raise x).pkBin = s.pkBin := rfl
@[simp] theorem State.raise_pkMag : (s.raise x).pkMag = s.pkMag := rfl
@[simp] theorem State.raise_domBin : (s.raise x).domBin = s.domBin := rfl
@[simp] theorem State.raise_domFreqE4 : (s.raise x).domFreqE4 = s.domFreqE4 := rfl
@[simp] theorem State.raise_qIn : (s.raise x).qIn = s.qIn := rfl
@[simp] theorem State.raise_qF : (s.raise x).qF = s.qF := rfl
@[simp] theorem State.raise_qOct : (s.raise x).qOct = s.qOct := rfl
@[simp] theorem State.raise_qN : (s.raise x).qN = s.qN := rfl
@[simp] theorem State.raise_qBest : (s.raise x).qBest = s.qBest := rfl
@[simp] theorem State.raise_qBdiff : (s.raise x).qBdiff = s.qBdiff := rfl
@[simp] theorem State.raise_qLabel : (s.raise x).qLabel = s.qLabel := rfl
@[simp] theorem State.raise_qFreq : (s.raise x).qFreq = s.qFreq := rfl
@[simp] theorem State.raise_tuneLabel : (s.raise x).tuneLabel = s.tuneLabel := rfl
@[simp] theorem State.raise_tuneFreq : (s.raise x).tuneFreq = s.tuneFreq := rfl
@[simp] theorem State.raise_osc : (s.raise x).osc = s.osc := rfl
@[simp] theorem State.raise_synPend : (s.raise x).synPend = s.synPend := rfl
@[simp] theorem State.raise_synAct : (s.raise x).synAct = s.synAct := rfl
@[simp] theorem State.raise_synPh : (s.raise x).synPh = s.synPh := rfl
@[simp] theorem State.raise_synAcc : (s.raise x).synAcc = s.synAcc := rfl
@[simp] theorem State.raise_dacOut : (s.raise x).dacOut = s.dacOut := rfl
@[simp] theorem State.raise_status : (s.raise x).status = raisedStatus s.status x := rfl
@[simp] theorem State.raise_samp : (s.raise x).samp = s.samp := rfl
@[simp] theorem State.raise_snap : (s.raise x).snap = s.snap := rfl
@[simp] theorem State.raise_re : (s.raise x).re = s.re := rfl
@[simp] theorem State.raise_im : (s.raise x).im = s.im := rfl
@[simp] theorem State.raise_note : (s.raise x).note = s.note := rfl
@[simp] theorem State.raise_label : (s.raise x).label = s.label := rfl
@[simp] theorem State.raise_wave : (s.raise x).wave = s.wave := rfl
@[simp] theorem State.raise_valued : (s.raise x).valued = s.valued := rfl
@[simp] theorem State.raise_dacStream : (s.raise x).dacStream = s.dacStream := rfl
@[simp] theorem State.raise_trace : (s.raise x).trace = s.trace := rfl
@[simp] theorem State.raise_draws : (s.raise x).draws = s.draws := rfl

end Raise

section Goto
variable (p : Phase)

@[simp] theorem State.goto_cfg : (s.goto p).cfg = s.cfg := rfl
@[simp] theorem State.goto_seq : (s.goto p).seq = p := rfl
@[simp] theorem State.goto_wrIdx : (s.goto p).wrIdx = s.wrIdx := rfl
@[simp] theorem State.goto_adcDr : (s.goto p).adcDr = s.adcDr := rfl
@[simp] theorem State.goto_adcEoc : (s.goto p).adcEoc = s.adcEoc := rfl
@[simp] theorem State.goto_acqPend : (s.goto p).acqPend = s.acqPend := rfl
@[simp] theorem State.goto_acqAct : (s.goto p).acqAct = s.acqAct := rfl
@[simp] theorem State.goto_acqWcnt : (s.goto p).acqWcnt = s.acqWcnt := rfl
@[simp] theorem State.goto_fi : (s.goto p).fi = s.fi := rfl
@[simp] theorem State.goto_fj : (s.goto p).fj = s.fj := rfl
@[simp] theorem State.goto_fstg : (s.goto p).fstg = s.fstg := rfl
@[simp] theorem State.goto_fhalf : (s.goto p).fhalf = s.fhalf := rfl
@[simp] theorem State.goto_fgrp : (s.goto p).fgrp = s.fgrp := rfl
@[simp] theorem State.goto_wRe : (s.goto p).wRe = s.wRe := rfl
@[simp] theorem State.goto_wIm : (s.goto p).wIm = s.wIm := rfl
@[simp] theorem State.goto_cRe : (s.goto p).cRe = s.cRe := rfl
@[simp] theorem State.goto_cIm : (s.goto p).cIm = s.cIm := rfl
@[simp] theorem State.goto_pkK : (s.goto p).pkK = s.pkK := rfl
@[simp] theorem State.goto_pkBin : (s.goto p).pkBin = s.pkBin := rfl
@[simp] theorem State.goto_pkMag : (s.goto p).pkMag = s.pkMag := rfl
@[simp] theorem State.goto_domBin : (s.goto p).domBin = s.domBin := rfl
@[simp] theorem State.goto_domFreqE4 : (s.goto p).domFreqE4 = s.domFreqE4 := rfl
@[simp] theorem State.goto_qIn : (s.goto p).qIn = s.qIn := rfl
@[simp] theorem State.goto_qF : (s.goto p).qF = s.qF := rfl
@[simp] theorem State.goto_qOct : (s.goto p).qOct = s.qOct := rfl
@[simp] theorem State.goto_qN : (s.goto p).qN = s.qN := rfl
@[simp] theorem State.goto_qBest : (s.goto p).qBest = s.qBest := rfl
@[simp] theorem State.goto_qBdiff : (s.goto p).qBdiff = s.qBdiff := rfl
@[simp] theorem State.goto_qLabel : (s.goto p).qLabel = s.qLabel := rfl
@[simp] theorem State.goto_qFreq : (s.goto p).qFreq = s.qFreq := rfl
@[simp] theorem State.goto_tuneLabel : (s.goto p).tuneLabel = s.tuneLabel := rfl
@[simp] theorem State.goto_tuneFreq : (s.goto p).tuneFreq = s.tuneFreq := rfl
@[simp] theorem State.goto_osc : (s.goto p).osc = s.osc := rfl
@[simp] theorem State.goto_synPend : (s.goto p).synPend = s.synPend := rfl
@[simp] theorem State.goto_synAct : (s.goto p).synAct = s.synAct := rfl
@[simp] theorem State.goto_synPh : (s.goto p).synPh = s.synPh := rfl
@[simp] theorem State.goto_synAcc : (s.goto p).synAcc = s.synAcc := rfl
@[simp] theorem State.goto_dacOut : (s.goto p).dacOut = s.dacOut := rfl
@[simp] theorem State.goto_status : (s.goto p).status = s.status := rfl
@[simp] theorem State.goto_samp : (s.goto p).samp = s.samp := rfl
@[simp] theorem State.goto_snap : (s.goto p).snap = s.snap := rfl
@[simp] theorem State.goto_re : (s.goto p).re = s.re := rfl
@[simp] theorem State.goto_im : (s.goto p).im = s.im := rfl
@[simp] theorem State.goto_note : (s.goto p).note = s.note := rfl
@[simp] theorem State.goto_label : (s.goto p).label = s.label := rfl
@[simp] theorem State.goto_wave : (s.goto p).wave = s.wave := rfl
@[simp] theorem State.goto_valued : (s.goto p).valued = s.valued := rfl
@[simp] theorem State.goto_dacStream : (s.goto p).dacStream = s.dacStream := rfl
@[simp] theorem State.goto_trace : (s.goto p).trace = s.trace := rfl
@[simp] theorem State.goto_draws : (s.goto p).draws = s.draws := rfl

end Goto

section WriteSamp
variable (i : Nat) (v : BitVec 16)

@[simp] theorem State.writeSamp_cfg : (s.writeSamp i v).cfg = s.cfg := rfl
@[simp] theorem State.writeSamp_seq : (s.writeSamp i v).seq = s.seq := rfl
@[simp] theorem State.writeSamp_wrIdx : (s.writeSamp i v).wrIdx = s.wrIdx := rfl
@[simp] theorem State.writeSamp_adcDr : (s.writeSamp i v).adcDr = s.adcDr := rfl
@[simp] theorem State.writeSamp_adcEoc : (s.writeSamp i v).adcEoc = s.adcEoc := rfl
@[simp] theorem State.writeSamp_acqPend : (s.writeSamp i v).acqPend = s.acqPend := rfl
@[simp] theorem State.writeSamp_acqAct : (s.writeSamp i v).acqAct = s.acqAct := rfl
@[simp] theorem State.writeSamp_acqWcnt : (s.writeSamp i v).acqWcnt = s.acqWcnt := rfl
@[simp] theorem State.writeSamp_fi : (s.writeSamp i v).fi = s.fi := rfl
@[simp] theorem State.writeSamp_fj : (s.writeSamp i v).fj = s.fj := rfl
@[simp] theorem State.writeSamp_fstg : (s.writeSamp i v).fstg = s.fstg := rfl
@[simp] theorem State.writeSamp_fhalf : (s.writeSamp i v).fhalf = s.fhalf := rfl
@[simp] theorem State.writeSamp_fgrp : (s.writeSamp i v).fgrp = s.fgrp := rfl
@[simp] theorem State.writeSamp_wRe : (s.writeSamp i v).wRe = s.wRe := rfl
@[simp] theorem State.writeSamp_wIm : (s.writeSamp i v).wIm = s.wIm := rfl
@[simp] theorem State.writeSamp_cRe : (s.writeSamp i v).cRe = s.cRe := rfl
@[simp] theorem State.writeSamp_cIm : (s.writeSamp i v).cIm = s.cIm := rfl
@[simp] theorem State.writeSamp_pkK : (s.writeSamp i v).pkK = s.pkK := rfl
@[simp] theorem State.writeSamp_pkBin : (s.writeSamp i v).pkBin = s.pkBin := rfl
@[simp] theorem State.writeSamp_pkMag : (s.writeSamp i v).pkMag = s.pkMag := rfl
@[simp] theorem State.writeSamp_domBin : (s.writeSamp i v).domBin = s.domBin := rfl
@[simp] theorem State.writeSamp_domFreqE4 : (s.writeSamp i v).domFreqE4 = s.domFreqE4 := rfl
@[simp] theorem State.writeSamp_qIn : (s.writeSamp i v).qIn = s.qIn := rfl
@[simp] theorem State.writeSamp_qF : (s.writeSamp i v).qF = s.qF := rfl
@[simp] theorem State.writeSamp_qOct : (s.writeSamp i v).qOct = s.qOct := rfl
@[simp] theorem State.writeSamp_qN : (s.writeSamp i v).qN = s.qN := rfl
@[simp] theorem State.writeSamp_qBest : (s.writeSamp i v).qBest = s.qBest := rfl
@[simp] theorem State.writeSamp_qBdiff : (s.writeSamp i v).qBdiff = s.qBdiff := rfl
@[simp] theorem State.writeSamp_qLabel : (s.writeSamp i v).qLabel = s.qLabel := rfl
@[simp] theorem State.writeSamp_qFreq : (s.writeSamp i v).qFreq = s.qFreq := rfl
@[simp] theorem State.writeSamp_tuneLabel : (s.writeSamp i v).tuneLabel = s.tuneLabel := rfl
@[simp] theorem State.writeSamp_tuneFreq : (s.writeSamp i v).tuneFreq = s.tuneFreq := rfl
@[simp] theorem State.writeSamp_osc : (s.writeSamp i v).osc = s.osc := rfl
@[simp] theorem State.writeSamp_synPend : (s.writeSamp i v).synPend = s.synPend := rfl
@[simp] theorem State.writeSamp_synAct : (s.writeSamp i v).synAct = s.synAct := rfl
@[simp] theorem State.writeSamp_synPh : (s.writeSamp i v).synPh = s.synPh := rfl
@[simp] theorem State.writeSamp_synAcc : (s.writeSamp i v).synAcc = s.synAcc := rfl
@[simp] theorem State.writeSamp_dacOut : (s.writeSamp i v).dacOut = s.dacOut := rfl
@[simp] theorem State.writeSamp_status : (s.writeSamp i v).status = s.status := rfl
@[simp] theorem State.writeSamp_samp : (s.writeSamp i v).samp = Memory.write s.cfg.val.ringResetAt s.samp i v := rfl
@[simp] theorem State.writeSamp_snap : (s.writeSamp i v).snap = s.snap := rfl
@[simp] theorem State.writeSamp_re : (s.writeSamp i v).re = s.re := rfl
@[simp] theorem State.writeSamp_im : (s.writeSamp i v).im = s.im := rfl
@[simp] theorem State.writeSamp_note : (s.writeSamp i v).note = s.note := rfl
@[simp] theorem State.writeSamp_label : (s.writeSamp i v).label = s.label := rfl
@[simp] theorem State.writeSamp_wave : (s.writeSamp i v).wave = s.wave := rfl
@[simp] theorem State.writeSamp_valued : (s.writeSamp i v).valued = s.valued := rfl
@[simp] theorem State.writeSamp_dacStream : (s.writeSamp i v).dacStream = s.dacStream := rfl
@[simp] theorem State.writeSamp_trace : (s.writeSamp i v).trace = s.trace := rfl
@[simp] theorem State.writeSamp_draws : (s.writeSamp i v).draws = s.draws := rfl

end WriteSamp

section WriteFrame
variable (i : Nat) (x y : FloatVal)

@[simp] theorem State.writeFrame_cfg : (s.writeFrame i x y).cfg = s.cfg := rfl
@[simp] theorem State.writeFrame_seq : (s.writeFrame i x y).seq = s.seq := rfl
@[simp] theorem State.writeFrame_wrIdx : (s.writeFrame i x y).wrIdx = s.wrIdx := rfl
@[simp] theorem State.writeFrame_adcDr : (s.writeFrame i x y).adcDr = s.adcDr := rfl
@[simp] theorem State.writeFrame_adcEoc : (s.writeFrame i x y).adcEoc = s.adcEoc := rfl
@[simp] theorem State.writeFrame_acqPend : (s.writeFrame i x y).acqPend = s.acqPend := rfl
@[simp] theorem State.writeFrame_acqAct : (s.writeFrame i x y).acqAct = s.acqAct := rfl
@[simp] theorem State.writeFrame_acqWcnt : (s.writeFrame i x y).acqWcnt = s.acqWcnt := rfl
@[simp] theorem State.writeFrame_fi : (s.writeFrame i x y).fi = s.fi := rfl
@[simp] theorem State.writeFrame_fj : (s.writeFrame i x y).fj = s.fj := rfl
@[simp] theorem State.writeFrame_fstg : (s.writeFrame i x y).fstg = s.fstg := rfl
@[simp] theorem State.writeFrame_fhalf : (s.writeFrame i x y).fhalf = s.fhalf := rfl
@[simp] theorem State.writeFrame_fgrp : (s.writeFrame i x y).fgrp = s.fgrp := rfl
@[simp] theorem State.writeFrame_wRe : (s.writeFrame i x y).wRe = s.wRe := rfl
@[simp] theorem State.writeFrame_wIm : (s.writeFrame i x y).wIm = s.wIm := rfl
@[simp] theorem State.writeFrame_cRe : (s.writeFrame i x y).cRe = s.cRe := rfl
@[simp] theorem State.writeFrame_cIm : (s.writeFrame i x y).cIm = s.cIm := rfl
@[simp] theorem State.writeFrame_pkK : (s.writeFrame i x y).pkK = s.pkK := rfl
@[simp] theorem State.writeFrame_pkBin : (s.writeFrame i x y).pkBin = s.pkBin := rfl
@[simp] theorem State.writeFrame_pkMag : (s.writeFrame i x y).pkMag = s.pkMag := rfl
@[simp] theorem State.writeFrame_domBin : (s.writeFrame i x y).domBin = s.domBin := rfl
@[simp] theorem State.writeFrame_domFreqE4 : (s.writeFrame i x y).domFreqE4 = s.domFreqE4 := rfl
@[simp] theorem State.writeFrame_qIn : (s.writeFrame i x y).qIn = s.qIn := rfl
@[simp] theorem State.writeFrame_qF : (s.writeFrame i x y).qF = s.qF := rfl
@[simp] theorem State.writeFrame_qOct : (s.writeFrame i x y).qOct = s.qOct := rfl
@[simp] theorem State.writeFrame_qN : (s.writeFrame i x y).qN = s.qN := rfl
@[simp] theorem State.writeFrame_qBest : (s.writeFrame i x y).qBest = s.qBest := rfl
@[simp] theorem State.writeFrame_qBdiff : (s.writeFrame i x y).qBdiff = s.qBdiff := rfl
@[simp] theorem State.writeFrame_qLabel : (s.writeFrame i x y).qLabel = s.qLabel := rfl
@[simp] theorem State.writeFrame_qFreq : (s.writeFrame i x y).qFreq = s.qFreq := rfl
@[simp] theorem State.writeFrame_tuneLabel : (s.writeFrame i x y).tuneLabel = s.tuneLabel := rfl
@[simp] theorem State.writeFrame_tuneFreq : (s.writeFrame i x y).tuneFreq = s.tuneFreq := rfl
@[simp] theorem State.writeFrame_osc : (s.writeFrame i x y).osc = s.osc := rfl
@[simp] theorem State.writeFrame_synPend : (s.writeFrame i x y).synPend = s.synPend := rfl
@[simp] theorem State.writeFrame_synAct : (s.writeFrame i x y).synAct = s.synAct := rfl
@[simp] theorem State.writeFrame_synPh : (s.writeFrame i x y).synPh = s.synPh := rfl
@[simp] theorem State.writeFrame_synAcc : (s.writeFrame i x y).synAcc = s.synAcc := rfl
@[simp] theorem State.writeFrame_dacOut : (s.writeFrame i x y).dacOut = s.dacOut := rfl
@[simp] theorem State.writeFrame_status : (s.writeFrame i x y).status = s.status := rfl
@[simp] theorem State.writeFrame_samp : (s.writeFrame i x y).samp = s.samp := rfl
@[simp] theorem State.writeFrame_snap : (s.writeFrame i x y).snap = s.snap := rfl
@[simp] theorem State.writeFrame_re : (s.writeFrame i x y).re = Memory.write noInitial s.re i x := rfl
@[simp] theorem State.writeFrame_im : (s.writeFrame i x y).im = Memory.write noInitial s.im i y := rfl
@[simp] theorem State.writeFrame_note : (s.writeFrame i x y).note = s.note := rfl
@[simp] theorem State.writeFrame_label : (s.writeFrame i x y).label = s.label := rfl
@[simp] theorem State.writeFrame_wave : (s.writeFrame i x y).wave = s.wave := rfl
@[simp] theorem State.writeFrame_valued : (s.writeFrame i x y).valued = s.valued := rfl
@[simp] theorem State.writeFrame_dacStream : (s.writeFrame i x y).dacStream = s.dacStream := rfl
@[simp] theorem State.writeFrame_trace : (s.writeFrame i x y).trace = s.trace := rfl
@[simp] theorem State.writeFrame_draws : (s.writeFrame i x y).draws = s.draws := rfl

end WriteFrame

section LoadTables

@[simp] theorem State.loadTables_cfg : s.loadTables.cfg = s.cfg := rfl
@[simp] theorem State.loadTables_seq : s.loadTables.seq = s.seq := rfl
@[simp] theorem State.loadTables_wrIdx : s.loadTables.wrIdx = s.wrIdx := rfl
@[simp] theorem State.loadTables_adcDr : s.loadTables.adcDr = s.adcDr := rfl
@[simp] theorem State.loadTables_adcEoc : s.loadTables.adcEoc = s.adcEoc := rfl
@[simp] theorem State.loadTables_acqPend : s.loadTables.acqPend = s.acqPend := rfl
@[simp] theorem State.loadTables_acqAct : s.loadTables.acqAct = s.acqAct := rfl
@[simp] theorem State.loadTables_acqWcnt : s.loadTables.acqWcnt = s.acqWcnt := rfl
@[simp] theorem State.loadTables_fi : s.loadTables.fi = s.fi := rfl
@[simp] theorem State.loadTables_fj : s.loadTables.fj = s.fj := rfl
@[simp] theorem State.loadTables_fstg : s.loadTables.fstg = s.fstg := rfl
@[simp] theorem State.loadTables_fhalf : s.loadTables.fhalf = s.fhalf := rfl
@[simp] theorem State.loadTables_fgrp : s.loadTables.fgrp = s.fgrp := rfl
@[simp] theorem State.loadTables_wRe : s.loadTables.wRe = s.wRe := rfl
@[simp] theorem State.loadTables_wIm : s.loadTables.wIm = s.wIm := rfl
@[simp] theorem State.loadTables_cRe : s.loadTables.cRe = s.cRe := rfl
@[simp] theorem State.loadTables_cIm : s.loadTables.cIm = s.cIm := rfl
@[simp] theorem State.loadTables_pkK : s.loadTables.pkK = s.pkK := rfl
@[simp] theorem State.loadTables_pkBin : s.loadTables.pkBin = s.pkBin := rfl
@[simp] theorem State.loadTables_pkMag : s.loadTables.pkMag = s.pkMag := rfl
@[simp] theorem State.loadTables_domBin : s.loadTables.domBin = s.domBin := rfl
@[simp] theorem State.loadTables_domFreqE4 : s.loadTables.domFreqE4 = s.domFreqE4 := rfl
@[simp] theorem State.loadTables_qIn : s.loadTables.qIn = s.qIn := rfl
@[simp] theorem State.loadTables_qF : s.loadTables.qF = s.qF := rfl
@[simp] theorem State.loadTables_qOct : s.loadTables.qOct = s.qOct := rfl
@[simp] theorem State.loadTables_qN : s.loadTables.qN = s.qN := rfl
@[simp] theorem State.loadTables_qBest : s.loadTables.qBest = s.qBest := rfl
@[simp] theorem State.loadTables_qBdiff : s.loadTables.qBdiff = s.qBdiff := rfl
@[simp] theorem State.loadTables_qLabel : s.loadTables.qLabel = s.qLabel := rfl
@[simp] theorem State.loadTables_qFreq : s.loadTables.qFreq = s.qFreq := rfl
@[simp] theorem State.loadTables_tuneLabel : s.loadTables.tuneLabel = s.tuneLabel := rfl
@[simp] theorem State.loadTables_tuneFreq : s.loadTables.tuneFreq = s.tuneFreq := rfl
@[simp] theorem State.loadTables_osc : s.loadTables.osc = s.osc := rfl
@[simp] theorem State.loadTables_synPend : s.loadTables.synPend = s.synPend := rfl
@[simp] theorem State.loadTables_synAct : s.loadTables.synAct = s.synAct := rfl
@[simp] theorem State.loadTables_synPh : s.loadTables.synPh = s.synPh := rfl
@[simp] theorem State.loadTables_synAcc : s.loadTables.synAcc = s.synAcc := rfl
@[simp] theorem State.loadTables_dacOut : s.loadTables.dacOut = s.dacOut := rfl
@[simp] theorem State.loadTables_status : s.loadTables.status = s.status := rfl
@[simp] theorem State.loadTables_samp : s.loadTables.samp = s.samp := rfl
@[simp] theorem State.loadTables_snap : s.loadTables.snap = s.snap := rfl
@[simp] theorem State.loadTables_re : s.loadTables.re = s.re := rfl
@[simp] theorem State.loadTables_im : s.loadTables.im = s.im := rfl
@[simp] theorem State.loadTables_note : s.loadTables.note = Memory.ofList s.cfg.val.noteTable := rfl
@[simp] theorem State.loadTables_label : s.loadTables.label = Memory.ofList s.cfg.val.labelTable := rfl
@[simp] theorem State.loadTables_wave : s.loadTables.wave = Memory.ofList s.cfg.val.waveTable := rfl
@[simp] theorem State.loadTables_valued : s.loadTables.valued = s.valued := rfl
@[simp] theorem State.loadTables_dacStream : s.loadTables.dacStream = s.dacStream := rfl
@[simp] theorem State.loadTables_trace : s.loadTables.trace = s.trace := rfl
@[simp] theorem State.loadTables_draws : s.loadTables.draws = s.draws := rfl

end LoadTables

section TakeSnapshot

@[simp] theorem State.takeSnapshot_cfg : s.takeSnapshot.cfg = s.cfg := rfl
@[simp] theorem State.takeSnapshot_seq : s.takeSnapshot.seq = s.seq := rfl
@[simp] theorem State.takeSnapshot_wrIdx : s.takeSnapshot.wrIdx = s.wrIdx := rfl
@[simp] theorem State.takeSnapshot_adcDr : s.takeSnapshot.adcDr = s.adcDr := rfl
@[simp] theorem State.takeSnapshot_adcEoc : s.takeSnapshot.adcEoc = s.adcEoc := rfl
@[simp] theorem State.takeSnapshot_acqPend : s.takeSnapshot.acqPend = s.acqPend := rfl
@[simp] theorem State.takeSnapshot_acqAct : s.takeSnapshot.acqAct = s.acqAct := rfl
@[simp] theorem State.takeSnapshot_acqWcnt : s.takeSnapshot.acqWcnt = s.acqWcnt := rfl
@[simp] theorem State.takeSnapshot_fi : s.takeSnapshot.fi = s.fi := rfl
@[simp] theorem State.takeSnapshot_fj : s.takeSnapshot.fj = s.fj := rfl
@[simp] theorem State.takeSnapshot_fstg : s.takeSnapshot.fstg = s.fstg := rfl
@[simp] theorem State.takeSnapshot_fhalf : s.takeSnapshot.fhalf = s.fhalf := rfl
@[simp] theorem State.takeSnapshot_fgrp : s.takeSnapshot.fgrp = s.fgrp := rfl
@[simp] theorem State.takeSnapshot_wRe : s.takeSnapshot.wRe = s.wRe := rfl
@[simp] theorem State.takeSnapshot_wIm : s.takeSnapshot.wIm = s.wIm := rfl
@[simp] theorem State.takeSnapshot_cRe : s.takeSnapshot.cRe = s.cRe := rfl
@[simp] theorem State.takeSnapshot_cIm : s.takeSnapshot.cIm = s.cIm := rfl
@[simp] theorem State.takeSnapshot_pkK : s.takeSnapshot.pkK = s.pkK := rfl
@[simp] theorem State.takeSnapshot_pkBin : s.takeSnapshot.pkBin = s.pkBin := rfl
@[simp] theorem State.takeSnapshot_pkMag : s.takeSnapshot.pkMag = s.pkMag := rfl
@[simp] theorem State.takeSnapshot_domBin : s.takeSnapshot.domBin = s.domBin := rfl
@[simp] theorem State.takeSnapshot_domFreqE4 : s.takeSnapshot.domFreqE4 = s.domFreqE4 := rfl
@[simp] theorem State.takeSnapshot_qIn : s.takeSnapshot.qIn = s.qIn := rfl
@[simp] theorem State.takeSnapshot_qF : s.takeSnapshot.qF = s.qF := rfl
@[simp] theorem State.takeSnapshot_qOct : s.takeSnapshot.qOct = s.qOct := rfl
@[simp] theorem State.takeSnapshot_qN : s.takeSnapshot.qN = s.qN := rfl
@[simp] theorem State.takeSnapshot_qBest : s.takeSnapshot.qBest = s.qBest := rfl
@[simp] theorem State.takeSnapshot_qBdiff : s.takeSnapshot.qBdiff = s.qBdiff := rfl
@[simp] theorem State.takeSnapshot_qLabel : s.takeSnapshot.qLabel = s.qLabel := rfl
@[simp] theorem State.takeSnapshot_qFreq : s.takeSnapshot.qFreq = s.qFreq := rfl
@[simp] theorem State.takeSnapshot_tuneLabel : s.takeSnapshot.tuneLabel = s.tuneLabel := rfl
@[simp] theorem State.takeSnapshot_tuneFreq : s.takeSnapshot.tuneFreq = s.tuneFreq := rfl
@[simp] theorem State.takeSnapshot_osc : s.takeSnapshot.osc = s.osc := rfl
@[simp] theorem State.takeSnapshot_synPend : s.takeSnapshot.synPend = s.synPend := rfl
@[simp] theorem State.takeSnapshot_synAct : s.takeSnapshot.synAct = s.synAct := rfl
@[simp] theorem State.takeSnapshot_synPh : s.takeSnapshot.synPh = s.synPh := rfl
@[simp] theorem State.takeSnapshot_synAcc : s.takeSnapshot.synAcc = s.synAcc := rfl
@[simp] theorem State.takeSnapshot_dacOut : s.takeSnapshot.dacOut = s.dacOut := rfl
@[simp] theorem State.takeSnapshot_status : s.takeSnapshot.status = s.status := rfl
@[simp] theorem State.takeSnapshot_samp : s.takeSnapshot.samp = s.samp := rfl
@[simp] theorem State.takeSnapshot_snap : s.takeSnapshot.snap = Memory.tabulate ringSize s.sample := rfl
@[simp] theorem State.takeSnapshot_re : s.takeSnapshot.re = s.re := rfl
@[simp] theorem State.takeSnapshot_im : s.takeSnapshot.im = s.im := rfl
@[simp] theorem State.takeSnapshot_note : s.takeSnapshot.note = s.note := rfl
@[simp] theorem State.takeSnapshot_label : s.takeSnapshot.label = s.label := rfl
@[simp] theorem State.takeSnapshot_wave : s.takeSnapshot.wave = s.wave := rfl
@[simp] theorem State.takeSnapshot_valued : s.takeSnapshot.valued = s.valued := rfl
@[simp] theorem State.takeSnapshot_dacStream : s.takeSnapshot.dacStream = s.dacStream := rfl
@[simp] theorem State.takeSnapshot_trace : s.takeSnapshot.trace = s.trace := rfl
@[simp] theorem State.takeSnapshot_draws : s.takeSnapshot.draws = s.draws := rfl

end TakeSnapshot

section EnterAcq

@[simp] theorem State.enterAcq_cfg : s.enterAcq.cfg = s.cfg := rfl
@[simp] theorem State.enterAcq_seq : s.enterAcq.seq = s.seq := rfl
@[simp] theorem State.enterAcq_wrIdx : s.enterAcq.wrIdx = s.wrIdx := rfl
@[simp] theorem State.enterAcq_adcDr : s.enterAcq.adcDr = s.adcDr := rfl
@[simp] theorem State.enterAcq_adcEoc : s.enterAcq.adcEoc = s.adcEoc := rfl
@[simp] theorem State.enterAcq_acqPend : s.enterAcq.acqPend = false := rfl
@[simp] theorem State.enterAcq_acqAct : s.enterAcq.acqAct = true := rfl
@[simp] theorem State.enterAcq_acqWcnt : s.enterAcq.acqWcnt = 0 := rfl
@[simp] theorem State.enterAcq_fi : s.enterAcq.fi = s.fi := rfl
@[simp] theorem State.enterAcq_fj : s.enterAcq.fj = s.fj := rfl
@[simp] theorem State.enterAcq_fstg : s.enterAcq.fstg = s.fstg := rfl
@[simp] theorem State.enterAcq_fhalf : s.enterAcq.fhalf = s.fhalf := rfl
@[simp] theorem State.enterAcq_fgrp : s.enterAcq.fgrp = s.fgrp := rfl
@[simp] theorem State.enterAcq_wRe : s.enterAcq.wRe = s.wRe := rfl
@[simp] theorem State.enterAcq_wIm : s.enterAcq.wIm = s.wIm := rfl
@[simp] theorem State.enterAcq_cRe : s.enterAcq.cRe = s.cRe := rfl
@[simp] theorem State.enterAcq_cIm : s.enterAcq.cIm = s.cIm := rfl
@[simp] theorem State.enterAcq_pkK : s.enterAcq.pkK = s.pkK := rfl
@[simp] theorem State.enterAcq_pkBin : s.enterAcq.pkBin = s.pkBin := rfl
@[simp] theorem State.enterAcq_pkMag : s.enterAcq.pkMag = s.pkMag := rfl
@[simp] theorem State.enterAcq_domBin : s.enterAcq.domBin = s.domBin := rfl
@[simp] theorem State.enterAcq_domFreqE4 : s.enterAcq.domFreqE4 = s.domFreqE4 := rfl
@[simp] theorem State.enterAcq_qIn : s.enterAcq.qIn = s.qIn := rfl
@[simp] theorem State.enterAcq_qF : s.enterAcq.qF = s.qF := rfl
@[simp] theorem State.enterAcq_qOct : s.enterAcq.qOct = s.qOct := rfl
@[simp] theorem State.enterAcq_qN : s.enterAcq.qN = s.qN := rfl
@[simp] theorem State.enterAcq_qBest : s.enterAcq.qBest = s.qBest := rfl
@[simp] theorem State.enterAcq_qBdiff : s.enterAcq.qBdiff = s.qBdiff := rfl
@[simp] theorem State.enterAcq_qLabel : s.enterAcq.qLabel = s.qLabel := rfl
@[simp] theorem State.enterAcq_qFreq : s.enterAcq.qFreq = s.qFreq := rfl
@[simp] theorem State.enterAcq_tuneLabel : s.enterAcq.tuneLabel = s.tuneLabel := rfl
@[simp] theorem State.enterAcq_tuneFreq : s.enterAcq.tuneFreq = s.tuneFreq := rfl
@[simp] theorem State.enterAcq_osc : s.enterAcq.osc = s.osc := rfl
@[simp] theorem State.enterAcq_synPend : s.enterAcq.synPend = s.synPend := rfl
@[simp] theorem State.enterAcq_synAct : s.enterAcq.synAct = s.synAct := rfl
@[simp] theorem State.enterAcq_synPh : s.enterAcq.synPh = s.synPh := rfl
@[simp] theorem State.enterAcq_synAcc : s.enterAcq.synAcc = s.synAcc := rfl
@[simp] theorem State.enterAcq_dacOut : s.enterAcq.dacOut = s.dacOut := rfl
@[simp] theorem State.enterAcq_status : s.enterAcq.status = s.status := rfl
@[simp] theorem State.enterAcq_samp : s.enterAcq.samp = s.samp := rfl
@[simp] theorem State.enterAcq_snap : s.enterAcq.snap = s.snap := rfl
@[simp] theorem State.enterAcq_re : s.enterAcq.re = s.re := rfl
@[simp] theorem State.enterAcq_im : s.enterAcq.im = s.im := rfl
@[simp] theorem State.enterAcq_note : s.enterAcq.note = s.note := rfl
@[simp] theorem State.enterAcq_label : s.enterAcq.label = s.label := rfl
@[simp] theorem State.enterAcq_wave : s.enterAcq.wave = s.wave := rfl
@[simp] theorem State.enterAcq_valued : s.enterAcq.valued = s.valued := rfl
@[simp] theorem State.enterAcq_dacStream : s.enterAcq.dacStream = s.dacStream := rfl
@[simp] theorem State.enterAcq_trace : s.enterAcq.trace = s.trace := rfl
@[simp] theorem State.enterAcq_draws : s.enterAcq.draws = s.draws := rfl

end EnterAcq

section LeaveAcq

@[simp] theorem State.leaveAcq_cfg : s.leaveAcq.cfg = s.cfg := rfl
@[simp] theorem State.leaveAcq_seq : s.leaveAcq.seq = s.seq := rfl
@[simp] theorem State.leaveAcq_wrIdx : s.leaveAcq.wrIdx = s.wrIdx := rfl
@[simp] theorem State.leaveAcq_adcDr : s.leaveAcq.adcDr = s.adcDr := rfl
@[simp] theorem State.leaveAcq_adcEoc : s.leaveAcq.adcEoc = s.adcEoc := rfl
@[simp] theorem State.leaveAcq_acqPend : s.leaveAcq.acqPend = s.acqPend := rfl
@[simp] theorem State.leaveAcq_acqAct : s.leaveAcq.acqAct = false := rfl
@[simp] theorem State.leaveAcq_acqWcnt : s.leaveAcq.acqWcnt = s.acqWcnt := rfl
@[simp] theorem State.leaveAcq_fi : s.leaveAcq.fi = s.fi := rfl
@[simp] theorem State.leaveAcq_fj : s.leaveAcq.fj = s.fj := rfl
@[simp] theorem State.leaveAcq_fstg : s.leaveAcq.fstg = s.fstg := rfl
@[simp] theorem State.leaveAcq_fhalf : s.leaveAcq.fhalf = s.fhalf := rfl
@[simp] theorem State.leaveAcq_fgrp : s.leaveAcq.fgrp = s.fgrp := rfl
@[simp] theorem State.leaveAcq_wRe : s.leaveAcq.wRe = s.wRe := rfl
@[simp] theorem State.leaveAcq_wIm : s.leaveAcq.wIm = s.wIm := rfl
@[simp] theorem State.leaveAcq_cRe : s.leaveAcq.cRe = s.cRe := rfl
@[simp] theorem State.leaveAcq_cIm : s.leaveAcq.cIm = s.cIm := rfl
@[simp] theorem State.leaveAcq_pkK : s.leaveAcq.pkK = s.pkK := rfl
@[simp] theorem State.leaveAcq_pkBin : s.leaveAcq.pkBin = s.pkBin := rfl
@[simp] theorem State.leaveAcq_pkMag : s.leaveAcq.pkMag = s.pkMag := rfl
@[simp] theorem State.leaveAcq_domBin : s.leaveAcq.domBin = s.domBin := rfl
@[simp] theorem State.leaveAcq_domFreqE4 : s.leaveAcq.domFreqE4 = s.domFreqE4 := rfl
@[simp] theorem State.leaveAcq_qIn : s.leaveAcq.qIn = s.qIn := rfl
@[simp] theorem State.leaveAcq_qF : s.leaveAcq.qF = s.qF := rfl
@[simp] theorem State.leaveAcq_qOct : s.leaveAcq.qOct = s.qOct := rfl
@[simp] theorem State.leaveAcq_qN : s.leaveAcq.qN = s.qN := rfl
@[simp] theorem State.leaveAcq_qBest : s.leaveAcq.qBest = s.qBest := rfl
@[simp] theorem State.leaveAcq_qBdiff : s.leaveAcq.qBdiff = s.qBdiff := rfl
@[simp] theorem State.leaveAcq_qLabel : s.leaveAcq.qLabel = s.qLabel := rfl
@[simp] theorem State.leaveAcq_qFreq : s.leaveAcq.qFreq = s.qFreq := rfl
@[simp] theorem State.leaveAcq_tuneLabel : s.leaveAcq.tuneLabel = s.tuneLabel := rfl
@[simp] theorem State.leaveAcq_tuneFreq : s.leaveAcq.tuneFreq = s.tuneFreq := rfl
@[simp] theorem State.leaveAcq_osc : s.leaveAcq.osc = s.osc := rfl
@[simp] theorem State.leaveAcq_synPend : s.leaveAcq.synPend = s.synPend := rfl
@[simp] theorem State.leaveAcq_synAct : s.leaveAcq.synAct = s.synAct := rfl
@[simp] theorem State.leaveAcq_synPh : s.leaveAcq.synPh = s.synPh := rfl
@[simp] theorem State.leaveAcq_synAcc : s.leaveAcq.synAcc = s.synAcc := rfl
@[simp] theorem State.leaveAcq_dacOut : s.leaveAcq.dacOut = s.dacOut := rfl
@[simp] theorem State.leaveAcq_status : s.leaveAcq.status = s.status := rfl
@[simp] theorem State.leaveAcq_samp : s.leaveAcq.samp = s.samp := rfl
@[simp] theorem State.leaveAcq_snap : s.leaveAcq.snap = s.snap := rfl
@[simp] theorem State.leaveAcq_re : s.leaveAcq.re = s.re := rfl
@[simp] theorem State.leaveAcq_im : s.leaveAcq.im = s.im := rfl
@[simp] theorem State.leaveAcq_note : s.leaveAcq.note = s.note := rfl
@[simp] theorem State.leaveAcq_label : s.leaveAcq.label = s.label := rfl
@[simp] theorem State.leaveAcq_wave : s.leaveAcq.wave = s.wave := rfl
@[simp] theorem State.leaveAcq_valued : s.leaveAcq.valued = s.valued := rfl
@[simp] theorem State.leaveAcq_dacStream : s.leaveAcq.dacStream = s.dacStream := rfl
@[simp] theorem State.leaveAcq_trace : s.leaveAcq.trace = s.trace := rfl
@[simp] theorem State.leaveAcq_draws : s.leaveAcq.draws = s.draws := rfl

end LeaveAcq

section EnterSyn

@[simp] theorem State.enterSyn_cfg : s.enterSyn.cfg = s.cfg := rfl
@[simp] theorem State.enterSyn_seq : s.enterSyn.seq = s.seq := rfl
@[simp] theorem State.enterSyn_wrIdx : s.enterSyn.wrIdx = s.wrIdx := rfl
@[simp] theorem State.enterSyn_adcDr : s.enterSyn.adcDr = s.adcDr := rfl
@[simp] theorem State.enterSyn_adcEoc : s.enterSyn.adcEoc = s.adcEoc := rfl
@[simp] theorem State.enterSyn_acqPend : s.enterSyn.acqPend = s.acqPend := rfl
@[simp] theorem State.enterSyn_acqAct : s.enterSyn.acqAct = s.acqAct := rfl
@[simp] theorem State.enterSyn_acqWcnt : s.enterSyn.acqWcnt = s.acqWcnt := rfl
@[simp] theorem State.enterSyn_fi : s.enterSyn.fi = s.fi := rfl
@[simp] theorem State.enterSyn_fj : s.enterSyn.fj = s.fj := rfl
@[simp] theorem State.enterSyn_fstg : s.enterSyn.fstg = s.fstg := rfl
@[simp] theorem State.enterSyn_fhalf : s.enterSyn.fhalf = s.fhalf := rfl
@[simp] theorem State.enterSyn_fgrp : s.enterSyn.fgrp = s.fgrp := rfl
@[simp] theorem State.enterSyn_wRe : s.enterSyn.wRe = s.wRe := rfl
@[simp] theorem State.enterSyn_wIm : s.enterSyn.wIm = s.wIm := rfl
@[simp] theorem State.enterSyn_cRe : s.enterSyn.cRe = s.cRe := rfl
@[simp] theorem State.enterSyn_cIm : s.enterSyn.cIm = s.cIm := rfl
@[simp] theorem State.enterSyn_pkK : s.enterSyn.pkK = s.pkK := rfl
@[simp] theorem State.enterSyn_pkBin : s.enterSyn.pkBin = s.pkBin := rfl
@[simp] theorem State.enterSyn_pkMag : s.enterSyn.pkMag = s.pkMag := rfl
@[simp] theorem State.enterSyn_domBin : s.enterSyn.domBin = s.domBin := rfl
@[simp] theorem State.enterSyn_domFreqE4 : s.enterSyn.domFreqE4 = s.domFreqE4 := rfl
@[simp] theorem State.enterSyn_qIn : s.enterSyn.qIn = s.qIn := rfl
@[simp] theorem State.enterSyn_qF : s.enterSyn.qF = s.qF := rfl
@[simp] theorem State.enterSyn_qOct : s.enterSyn.qOct = s.qOct := rfl
@[simp] theorem State.enterSyn_qN : s.enterSyn.qN = s.qN := rfl
@[simp] theorem State.enterSyn_qBest : s.enterSyn.qBest = s.qBest := rfl
@[simp] theorem State.enterSyn_qBdiff : s.enterSyn.qBdiff = s.qBdiff := rfl
@[simp] theorem State.enterSyn_qLabel : s.enterSyn.qLabel = s.qLabel := rfl
@[simp] theorem State.enterSyn_qFreq : s.enterSyn.qFreq = s.qFreq := rfl
@[simp] theorem State.enterSyn_tuneLabel : s.enterSyn.tuneLabel = s.tuneLabel := rfl
@[simp] theorem State.enterSyn_tuneFreq : s.enterSyn.tuneFreq = s.tuneFreq := rfl
@[simp] theorem State.enterSyn_osc : s.enterSyn.osc = s.osc := rfl
@[simp] theorem State.enterSyn_synPend : s.enterSyn.synPend = false := rfl
@[simp] theorem State.enterSyn_synAct : s.enterSyn.synAct = true := rfl
@[simp] theorem State.enterSyn_synPh : s.enterSyn.synPh = .step := rfl
@[simp] theorem State.enterSyn_synAcc : s.enterSyn.synAcc = s.synAcc := rfl
@[simp] theorem State.enterSyn_dacOut : s.enterSyn.dacOut = s.dacOut := rfl
@[simp] theorem State.enterSyn_status : s.enterSyn.status = s.status := rfl
@[simp] theorem State.enterSyn_samp : s.enterSyn.samp = s.samp := rfl
@[simp] theorem State.enterSyn_snap : s.enterSyn.snap = s.snap := rfl
@[simp] theorem State.enterSyn_re : s.enterSyn.re = s.re := rfl
@[simp] theorem State.enterSyn_im : s.enterSyn.im = s.im := rfl
@[simp] theorem State.enterSyn_note : s.enterSyn.note = s.note := rfl
@[simp] theorem State.enterSyn_label : s.enterSyn.label = s.label := rfl
@[simp] theorem State.enterSyn_wave : s.enterSyn.wave = s.wave := rfl
@[simp] theorem State.enterSyn_valued : s.enterSyn.valued = s.valued := rfl
@[simp] theorem State.enterSyn_dacStream : s.enterSyn.dacStream = s.dacStream := rfl
@[simp] theorem State.enterSyn_trace : s.enterSyn.trace = s.trace := rfl
@[simp] theorem State.enterSyn_draws : s.enterSyn.draws = s.draws := rfl

end EnterSyn

section LeaveSyn

@[simp] theorem State.leaveSyn_cfg : s.leaveSyn.cfg = s.cfg := rfl
@[simp] theorem State.leaveSyn_seq : s.leaveSyn.seq = s.seq := rfl
@[simp] theorem State.leaveSyn_wrIdx : s.leaveSyn.wrIdx = s.wrIdx := rfl
@[simp] theorem State.leaveSyn_adcDr : s.leaveSyn.adcDr = s.adcDr := rfl
@[simp] theorem State.leaveSyn_adcEoc : s.leaveSyn.adcEoc = s.adcEoc := rfl
@[simp] theorem State.leaveSyn_acqPend : s.leaveSyn.acqPend = s.acqPend := rfl
@[simp] theorem State.leaveSyn_acqAct : s.leaveSyn.acqAct = s.acqAct := rfl
@[simp] theorem State.leaveSyn_acqWcnt : s.leaveSyn.acqWcnt = s.acqWcnt := rfl
@[simp] theorem State.leaveSyn_fi : s.leaveSyn.fi = s.fi := rfl
@[simp] theorem State.leaveSyn_fj : s.leaveSyn.fj = s.fj := rfl
@[simp] theorem State.leaveSyn_fstg : s.leaveSyn.fstg = s.fstg := rfl
@[simp] theorem State.leaveSyn_fhalf : s.leaveSyn.fhalf = s.fhalf := rfl
@[simp] theorem State.leaveSyn_fgrp : s.leaveSyn.fgrp = s.fgrp := rfl
@[simp] theorem State.leaveSyn_wRe : s.leaveSyn.wRe = s.wRe := rfl
@[simp] theorem State.leaveSyn_wIm : s.leaveSyn.wIm = s.wIm := rfl
@[simp] theorem State.leaveSyn_cRe : s.leaveSyn.cRe = s.cRe := rfl
@[simp] theorem State.leaveSyn_cIm : s.leaveSyn.cIm = s.cIm := rfl
@[simp] theorem State.leaveSyn_pkK : s.leaveSyn.pkK = s.pkK := rfl
@[simp] theorem State.leaveSyn_pkBin : s.leaveSyn.pkBin = s.pkBin := rfl
@[simp] theorem State.leaveSyn_pkMag : s.leaveSyn.pkMag = s.pkMag := rfl
@[simp] theorem State.leaveSyn_domBin : s.leaveSyn.domBin = s.domBin := rfl
@[simp] theorem State.leaveSyn_domFreqE4 : s.leaveSyn.domFreqE4 = s.domFreqE4 := rfl
@[simp] theorem State.leaveSyn_qIn : s.leaveSyn.qIn = s.qIn := rfl
@[simp] theorem State.leaveSyn_qF : s.leaveSyn.qF = s.qF := rfl
@[simp] theorem State.leaveSyn_qOct : s.leaveSyn.qOct = s.qOct := rfl
@[simp] theorem State.leaveSyn_qN : s.leaveSyn.qN = s.qN := rfl
@[simp] theorem State.leaveSyn_qBest : s.leaveSyn.qBest = s.qBest := rfl
@[simp] theorem State.leaveSyn_qBdiff : s.leaveSyn.qBdiff = s.qBdiff := rfl
@[simp] theorem State.leaveSyn_qLabel : s.leaveSyn.qLabel = s.qLabel := rfl
@[simp] theorem State.leaveSyn_qFreq : s.leaveSyn.qFreq = s.qFreq := rfl
@[simp] theorem State.leaveSyn_tuneLabel : s.leaveSyn.tuneLabel = s.tuneLabel := rfl
@[simp] theorem State.leaveSyn_tuneFreq : s.leaveSyn.tuneFreq = s.tuneFreq := rfl
@[simp] theorem State.leaveSyn_osc : s.leaveSyn.osc = s.osc := rfl
@[simp] theorem State.leaveSyn_synPend : s.leaveSyn.synPend = s.synPend := rfl
@[simp] theorem State.leaveSyn_synAct : s.leaveSyn.synAct = false := rfl
@[simp] theorem State.leaveSyn_synPh : s.leaveSyn.synPh = .idle := rfl
@[simp] theorem State.leaveSyn_synAcc : s.leaveSyn.synAcc = s.synAcc := rfl
@[simp] theorem State.leaveSyn_dacOut : s.leaveSyn.dacOut = s.dacOut := rfl
@[simp] theorem State.leaveSyn_status : s.leaveSyn.status = s.status := rfl
@[simp] theorem State.leaveSyn_samp : s.leaveSyn.samp = s.samp := rfl
@[simp] theorem State.leaveSyn_snap : s.leaveSyn.snap = s.snap := rfl
@[simp] theorem State.leaveSyn_re : s.leaveSyn.re = s.re := rfl
@[simp] theorem State.leaveSyn_im : s.leaveSyn.im = s.im := rfl
@[simp] theorem State.leaveSyn_note : s.leaveSyn.note = s.note := rfl
@[simp] theorem State.leaveSyn_label : s.leaveSyn.label = s.label := rfl
@[simp] theorem State.leaveSyn_wave : s.leaveSyn.wave = s.wave := rfl
@[simp] theorem State.leaveSyn_valued : s.leaveSyn.valued = s.valued := rfl
@[simp] theorem State.leaveSyn_dacStream : s.leaveSyn.dacStream = s.dacStream := rfl
@[simp] theorem State.leaveSyn_trace : s.leaveSyn.trace = s.trace := rfl
@[simp] theorem State.leaveSyn_draws : s.leaveSyn.draws = s.draws := rfl

end LeaveSyn

end Sys2Proof.Machine
end

