-- ==== Sys2Proof/Laws/Ops.lean ====
section
/-! SUPPORT. What each shared operation can do, once: a guarded operation, a read, a write of the frame or of the
ring buffer, a channel map, the butterfly index walk, the free choice. -/

namespace Sys2Proof.Machine

variable {s t : State} {i : Instr}

section Guard

theorem guarded_enabled {b : Result} (h : enabled i s = true) : guarded i s b = b := if_pos h

theorem guarded_disabled {b : Result} (h : enabled i s = false) : guarded i s b = .refused (.notEnabled i) := by
  simp [guarded, h]

/-- A guarded operation that answers a next state was enabled, and its body answered it. -/
theorem guarded_next {b : Result} (h : guarded i s b = .next t) : enabled i s = true ∧ b = .next t := by
  unfold guarded at h
  split at h
  · exact ⟨‹_›, h⟩
  · cases h

theorem handlerBusy_eq_false : s.handlerBusy = false ↔ s.Idle := by
  simp [State.handlerBusy, State.Idle, and_assoc]

/-- A foreground operation is enabled exactly in its phase and while no handler is pending or active. -/
theorem foregroundEnabled_iff {p : Phase} : s.foregroundEnabled p = true ↔ s.seq = p ∧ s.Idle := by
  simp [State.foregroundEnabled, ← handlerBusy_eq_false]

end Guard

section Read

variable {α : Type}

@[simp] theorem andThen_ok (v : α) (k : α → Result) : andThen (.ok v) k = k v := rfl

@[simp] theorem andThen_error (f : Fault) (k : α → Result) : andThen (.error f) k = .fault f := rfl

/-- A read whose continuation answers a next state succeeded. -/
theorem andThen_next {r : Except Fault α} {k : α → Result} (h : andThen r k = .next t) :
    ∃ v, r = .ok v ∧ k v = .next t := by
  cases r with
  | ok v => exact ⟨v, rfl, h⟩
  | error f => cases h

/-- A read answers a value exactly where the index names an element that holds it. -/
theorem readElement_ok {mem : MemId} {size : Nat} {initial : Nat → Option α} {m : Memory α} {k : Nat} {v : α} :
    readElement mem size initial m k = .ok v ↔ k < size ∧ Memory.read initial m k = some v := by
  unfold readElement
  by_cases hk : k < size
  · rw [if_pos hk]
    cases hr : Memory.read initial m k <;> simp [hk]
  · simp [hk]

theorem withFrame_ok {k : Nat} {x y : FloatVal} {f : FloatVal → FloatVal → Result} (hx : s.readRe k = .ok x)
    (hy : s.readIm k = .ok y) : s.withFrame k f = f x y := by
  simp [State.withFrame, hx, hy]

/-- A frame read whose continuation answers a next state found both parts. -/
theorem withFrame_next {k : Nat} {f : FloatVal → FloatVal → Result} (h : s.withFrame k f = .next t) :
    ∃ x y, s.readRe k = .ok x ∧ s.readIm k = .ok y ∧ f x y = .next t := by
  obtain ⟨x, hx, h⟩ := andThen_next h
  obtain ⟨y, hy, h⟩ := andThen_next h
  exact ⟨x, y, hx, hy, h⟩

end Read

section Write

theorem readRe_writeFrame_same {k : Nat} (hk : k < 1024) (x y : FloatVal) :
    (s.writeFrame k x y).readRe k = .ok x :=
  readElement_ok.2 ⟨hk, by simp [Memory.read, Memory.write, noInitial, Memory.lookup_insert_self]⟩

theorem readIm_writeFrame_same {k : Nat} (hk : k < 1024) (x y : FloatVal) :
    (s.writeFrame k x y).readIm k = .ok y :=
  readElement_ok.2 ⟨hk, by simp [Memory.read, Memory.write, noInitial, Memory.lookup_insert_self]⟩

theorem readRe_writeFrame_other {j k : Nat} (h : j ≠ k) (x y : FloatVal) :
    (s.writeFrame k x y).readRe j = s.readRe j := by
  simp [State.readRe, readElement, Memory.read_write_other _ _ h]

theorem readIm_writeFrame_other {j k : Nat} (h : j ≠ k) (x y : FloatVal) :
    (s.writeFrame k x y).readIm j = s.readIm j := by
  simp [State.readIm, readElement, Memory.read_write_other _ _ h]

/-- Reading the real parts after a write to an element of the frame. -/
theorem readRe_writeFrame {i k : Nat} (hk : k < 1024) (x y : FloatVal) :
    (s.writeFrame k x y).readRe i = if i = k then .ok x else s.readRe i := by
  split
  · rename_i e
    subst e
    exact readRe_writeFrame_same hk x y
  · exact readRe_writeFrame_other ‹_› x y

/-- Reading the imaginary parts after a write to an element of the frame. -/
theorem readIm_writeFrame {i k : Nat} (hk : k < 1024) (x y : FloatVal) :
    (s.writeFrame k x y).readIm i = if i = k then .ok y else s.readIm i := by
  split
  · rename_i e
    subst e
    exact readIm_writeFrame_same hk x y
  · exact readIm_writeFrame_other ‹_› x y

/-- Writing a slot of the ring buffer: that slot holds the sample. -/
theorem readSamp_writeSamp_same (hw : Memory.wf 1024 s.cfg.val.ringResetAt s.samp = true) {k : Nat} (hk : k < 1024)
    (v : BitVec 16) : (s.writeSamp k v).readSamp k = .ok v :=
  readElement_ok.2 ⟨hk, Memory.read_write_same s.samp hw k v⟩

/-- Writing a slot of the ring buffer: every other slot is as before. -/
theorem readSamp_writeSamp_other {j k : Nat} (h : j ≠ k) (v : BitVec 16) :
    (s.writeSamp k v).readSamp j = s.readSamp j := by
  simp [State.readSamp, readElement, Memory.read_write_other _ _ h]

/-- Every slot of the ring buffer holds a value. -/
theorem readSamp_eq_sample {k : Nat} (hk : k < 1024) : s.readSamp k = .ok (s.sample k) := by
  refine readElement_ok.2 ⟨hk, ?_⟩
  unfold State.sample Memory.read Config.ringResetAt
  cases Memory.lookup s.samp k with
  | some v => rfl
  | none => cases Memory.lookup s.cfg.val.ringReset k <;> rfl

theorem readSnap_takeSnapshot {k : Nat} (hk : k < 1024) : s.takeSnapshot.readSnap k = s.readSamp k := by
  rw [readSamp_eq_sample hk]
  refine readElement_ok.2 ⟨hk, ?_⟩
  simp only [State.takeSnapshot_snap, Memory.read, Memory.lookup_tabulate, ringSize, if_pos hk]

end Write

section Tables

/-- What the constraints of a configuration say about the lengths of its tables. -/
theorem Config_valid_lengths {c : Config} (h : c.valid = true) :
    c.noteTable.length = 108 ∧ c.labelTable.length = 12 ∧ c.waveTable.length = 1000 ∧ c.tw.length = 10 := by
  simp only [Config.valid, twiddlesValid, noteTableValid, waveTableValid, Bool.and_eq_true, Nat.beq_eq, List.length_map] at h
  tauto

/-- Filling the tables makes them readable as configured. -/
theorem tablesLoaded_loadTables (s : State) : s.loadTables.TablesLoaded := by
  obtain ⟨hn, hl, hw, -⟩ := Config_valid_lengths s.cfg.property
  refine ⟨fun o n ho hn' => ?_, fun n hn' => ?_, fun i hi => ?_⟩
  · have hk : 12 * o + n < s.cfg.val.noteTable.length := by omega
    rw [State.readNote, if_pos (show n < noteCount from hn'), readElement_ok]
    refine ⟨by simp only [octaveCount, noteCount, noteIndex]; omega, ?_⟩
    simp [Memory.read, Memory.lookup_ofList, noteIndex, noteCount, hk]
  · have hk : n < s.cfg.val.labelTable.length := by omega
    refine readElement_ok.2 ⟨hn', ?_⟩
    simp [Memory.read, Memory.lookup_ofList, hk]
  · have hk : i < s.cfg.val.waveTable.length := by omega
    refine readElement_ok.2 ⟨hi, ?_⟩
    simp [Memory.read, Memory.lookup_ofList, hk]

end Tables

section Channels

variable {f : Nat → Oscillator → Oscillator}

@[simp] theorem mapChannels_length (c : Nat) (l : List Oscillator) : (mapChannels f c l).length = l.length := by
  induction l generalizing c with
  | nil => rfl
  | cons o l ih => simp [mapChannels, ih]

/-- The channel map acts on every channel by its own number. -/
theorem mapChannels_getElem? (c : Nat) (l : List Oscillator) (k : Nat) :
    (mapChannels f c l)[k]? = l[k]?.map (f (c + k)) := by
  induction l generalizing c k with
  | nil => simp [mapChannels]
  | cons o l ih =>
    cases k with
    | zero => simp [mapChannels]
    | succ k => simp [mapChannels, ih, Nat.add_assoc, Nat.add_comm 1]

theorem mem_mapChannels {c : Nat} {l : List Oscillator} {o : Oscillator} (h : o ∈ mapChannels f c l) :
    ∃ k p, p ∈ l ∧ o = f k p := by
  induction l generalizing c with
  | nil => cases h
  | cons p l ih =>
    rcases List.mem_cons.1 h with rfl | h
    · exact ⟨c, p, List.mem_cons_self, rfl⟩
    · obtain ⟨k, q, hq, rfl⟩ := ih h
      exact ⟨k, q, List.mem_cons_of_mem _ hq, rfl⟩

end Channels

section Walk

/-- The butterfly index walk counts through the bit reversals (41_fft_peak.md R158). -/
theorem walkNext_rev10 : ∀ k, k < 1023 → walkNext (rev10 k) = some (rev10 (k + 1)) := by
  decide +kernel

theorem rev10_lt : ∀ k, k < 1024 → rev10 k < 1024 := by
  decide +kernel

theorem rev10_rev10 : ∀ k, k < 1024 → rev10 (rev10 k) = k := by
  decide +kernel

/-- `FFT.REV` after its swap, where the walk has a next index. -/
theorem walkStep_some {j : Nat} (h : walkNext s.fj.toNat = some j) :
    s.walkStep = .next (if s.fi.toNat = 1022 then { s with fj := BitVec.ofNat 10 j, fstg := 1, seq := .stg }
      else { s with fj := BitVec.ofNat 10 j, fi := s.fi + 1 }) := by
  simp only [State.walkStep, h]

end Walk

section Run

/-- An operation that answers a next state was enabled. -/
theorem exec_next_enabled (h : exec i s = .next t) : enabled i s = true := by
  cases i <;> first
    | rfl
    | exact (guarded_next (show guarded _ _ _ = _ from h)).1

/-- An operation that is not enabled is refused. -/
theorem exec_disabled (h : enabled i s = false) : exec i s = .refused (.notEnabled i) := by
  cases i <;> exact guarded_disabled h

theorem runOperations_cons {ops : List Instr} (h : exec i s = .next t) :
    runOperations (i :: ops) s = runOperations ops t := by
  simp only [runOperations, h]

/-- A run of two sequences, one after the other. -/
theorem runOperations_append {xs ys : List Instr} (h : runOperations xs s = .next t) :
    runOperations (xs ++ ys) s = runOperations ys t := by
  induction xs generalizing s with
  | nil =>
    cases h
    rfl
  | cons x xs ih =>
    simp only [List.cons_append, runOperations] at h ⊢
    cases hx : exec x s with
    | next u =>
      rw [hx] at h
      exact ih h
    | fault f =>
      rw [hx] at h
      cases h
    | refused r =>
      rw [hx] at h
      cases h

end Run

section Choice

theorem envReset_mem_enabledOperations : Instr.envReset ∈ s.enabledOperations := by
  simp [State.enabledOperations, allOperations, enabled]

/-- A free choice picks an enabled operation. -/
theorem freeOperation_enabled : enabled s.freeOperation s = true := by
  have hlen : 0 < s.enabledOperations.length := List.length_pos_of_mem envReset_mem_enabledOperations
  have hlt := Nat.mod_lt (Config.freePick s.draws) hlen
  have hmem : s.freeOperation ∈ s.enabledOperations := by
    simp only [State.freeOperation, List.getD_eq_getElem _ _ hlt]
    exact List.getElem_mem hlt
  exact (List.mem_filter.1 hmem).2

end Choice

end Sys2Proof.Machine
end

