-- ==== Sys2Proof/Laws/Invariant.lean ====
section
/-! SUPPORT. What each part of the invariant rests on: which fields a condition reads, how a write extends the
frame, and how large the mixed sum can be. -/

namespace Sys2Proof.Machine

variable {s t : State}

section Congruence

theorem State.TablesLoaded.congr (h : s.TablesLoaded) (hc : t.cfg = s.cfg) (hn : t.note = s.note)
    (hl : t.label = s.label) (hw : t.wave = s.wave) : t.TablesLoaded := by
  simpa only [State.TablesLoaded, State.readNote, State.readLabel, State.readWave, hc, hn, hl, hw] using h

theorem State.FrameUpTo.congr {n : Nat} (h : s.FrameUpTo n) (hr : t.re = s.re) (hi : t.im = s.im) :
    t.FrameUpTo n := by
  simpa only [State.FrameUpTo, State.readRe, State.readIm, hr, hi] using h

theorem State.SnapFull.congr (h : s.SnapFull) (hr : t.snap = s.snap) : t.SnapFull := by
  simpa only [State.SnapFull, State.readSnap, hr] using h

/-- Writing an element of the frame leaves every other with its value. -/
theorem State.FrameUpTo.write {n k : Nat} (h : s.FrameUpTo n) (hk : k < 1024) (x y : FloatVal) :
    (s.writeFrame k x y).FrameUpTo n := by
  intro i hi
  by_cases e : i = k
  · subst e
    exact ⟨x, y, readRe_writeFrame_same hk x y, readIm_writeFrame_same hk x y⟩
  · rw [readRe_writeFrame_other e, readIm_writeFrame_other e]
    exact h i hi

/-- A phase's condition reads only what belongs to the foreground. -/
theorem State.PhaseInv.congr (h : s.PhaseInv) (hc : t.cfg = s.cfg) (hf : s.SameForeground t) : t.PhaseInv := by
  obtain ⟨h1, h2, h3, h4, h5, h6, -, -, -, -, h7, h8, -, -, -, h9, h10, h11, h12, h13, -, -, -, -, -, h14, h15, h16,
    -, -, -⟩ := hf
  unfold State.PhaseInv State.FrameFull State.StageInv at *
  rw [h1]
  cases hs : s.seq <;>
    simp only [hs, h2, h3, h4, h5, h6, h7, h8, h9, h10, h11, h12, h13, hc] at h ⊢ <;>
    first
    | exact trivial
    | exact h
    | exact ⟨h.1, State.FrameUpTo.congr h.2.1 h15 h16, fun e => State.SnapFull.congr (h.2.2 e) h14⟩
    | exact ⟨h.1, h.2.1, State.FrameUpTo.congr h.2.2 h15 h16⟩
    | exact ⟨h.1, h.2.1, h.2.2.1, State.FrameUpTo.congr h.2.2.2 h15 h16⟩
    | exact ⟨h.1, State.FrameUpTo.congr h.2 h15 h16⟩
    | exact State.FrameUpTo.congr h h15 h16

end Congruence

section Mix

theorem waveTableValid_iff {l : List (BitVec 16)} :
    waveTableValid l = true ↔ l.length = 1000 ∧ ∀ v ∈ l, v.toNat ≠ 0x8000 := by
  simp only [waveTableValid, Bool.and_eq_true, Nat.beq_eq, List.all_eq_true, Bool.not_eq_true',
    ← Bool.not_eq_true, ne_eq]

/-- A wavetable entry is at most 32767 in magnitude (10_state.md R46). -/
theorem readWave_bound (h : s.TablesLoaded) {i : Nat} {v : BitVec 16} (hr : s.readWave i = .ok v) :
    v.toInt.natAbs ≤ 32767 := by
  have hi : i < 1000 := (readElement_ok.1 hr).1
  rw [h.2.2 i hi, Except.ok.injEq] at hr
  have hv := s.cfg.property
  simp only [Config.valid, Bool.and_eq_true] at hv
  obtain ⟨hl, hw⟩ := waveTableValid_iff.1 hv.2
  have hne := hw v (by rw [← hr, List.getD_eq_getElem _ _ (by omega)]; exact List.getElem_mem _)
  have hlt := v.isLt
  rw [BitVec.toInt_eq_toNat_cond]
  split <;> omega

/-- The sum of the channels is at most `NCH * 32767` in magnitude (43_synthesis.md R206 (b)). -/
theorem mixChannels_bound (h : s.TablesLoaded) {l : List Oscillator} {v : Int} (hr : s.mixChannels l = .ok v) :
    v.natAbs ≤ l.length * 32767 := by
  induction l generalizing v with
  | nil =>
    cases hr
    simp
  | cons o l ih =>
    simp only [State.mixChannels] at hr
    split at hr
    · cases hr
    · rename_i w hw
      split at hr
      · cases hr
      · rename_i u hu
        cases hr
        have hw' := readWave_bound h hw
        have hu' := ih hu
        simp only [List.length_cons]
        omega

/-- A sum within 32 signed bits is what `SYN_ACC` holds. -/
theorem mixedSum_toInt {v : Int} (h : -2 ^ 31 ≤ v ∧ v < 2 ^ 31) : (mixedSum v).toInt = v := by
  unfold mixedSum
  rw [if_pos h, BitVec.toInt_ofInt, Int.bmod_def]
  omega

end Mix

end Sys2Proof.Machine
end

