-- ==== Sys2Proof/Laws/PerInstr.lean ====
section
/-! SUPPORT. What holds of every operation as syntax: its operation number carries its class in bits 7:4
(30_encoding.md R107). -/

namespace Sys2Proof.Laws

/-- The class of an operation is bits 7:4 of its operation number, and no class has more than eight operations
(30_encoding.md R107, R109). -/
def OpClass.Statement (i : Instr) : Prop :=
  opNumber i / 16 = i.opClass.number ∧ opNumber i % 16 < 8

theorem OpClass.envReset : OpClass.Statement .envReset := ⟨rfl, by simp [opNumber]⟩
theorem OpClass.envAtick : OpClass.Statement .envAtick := ⟨rfl, by simp [opNumber]⟩
theorem OpClass.envEoc (v : BitVec 16) : OpClass.Statement (.envEoc v) :=
  ⟨by simp [opNumber, Instr.opClass, Sys2Proof.OpClass.number], by simp [opNumber]⟩
theorem OpClass.envStick : OpClass.Statement .envStick := ⟨rfl, by simp [opNumber]⟩
theorem OpClass.acqEnter : OpClass.Statement .acqEnter := ⟨rfl, by simp [opNumber]⟩
theorem OpClass.acqWait : OpClass.Statement .acqWait := ⟨rfl, by simp [opNumber]⟩
theorem OpClass.acqStore : OpClass.Statement .acqStore := ⟨rfl, by simp [opNumber]⟩
theorem OpClass.synEnter : OpClass.Statement .synEnter := ⟨rfl, by simp [opNumber]⟩
theorem OpClass.synStep : OpClass.Statement .synStep := ⟨rfl, by simp [opNumber]⟩
theorem OpClass.synAdv : OpClass.Statement .synAdv := ⟨rfl, by simp [opNumber]⟩
theorem OpClass.synMix : OpClass.Statement .synMix := ⟨rfl, by simp [opNumber]⟩
theorem OpClass.synOut : OpClass.Statement .synOut := ⟨rfl, by simp [opNumber]⟩
theorem OpClass.orchInit : OpClass.Statement .orchInit := ⟨rfl, by simp [opNumber]⟩
theorem OpClass.orchPoll : OpClass.Statement .orchPoll := ⟨rfl, by simp [opNumber]⟩
theorem OpClass.orchPub : OpClass.Statement .orchPub := ⟨rfl, by simp [opNumber]⟩
theorem OpClass.fftLoad : OpClass.Statement .fftLoad := ⟨rfl, by simp [opNumber]⟩
theorem OpClass.fftRev : OpClass.Statement .fftRev := ⟨rfl, by simp [opNumber]⟩
theorem OpClass.fftStg : OpClass.Statement .fftStg := ⟨rfl, by simp [opNumber]⟩
theorem OpClass.fftBfy : OpClass.Statement .fftBfy := ⟨rfl, by simp [opNumber]⟩
theorem OpClass.fftTwn : OpClass.Statement .fftTwn := ⟨rfl, by simp [opNumber]⟩
theorem OpClass.pkInit : OpClass.Statement .pkInit := ⟨rfl, by simp [opNumber]⟩
theorem OpClass.pkScan : OpClass.Statement .pkScan := ⟨rfl, by simp [opNumber]⟩
theorem OpClass.pkDone : OpClass.Statement .pkDone := ⟨rfl, by simp [opNumber]⟩
theorem OpClass.qntStart : OpClass.Statement .qntStart := ⟨rfl, by simp [opNumber]⟩
theorem OpClass.qntRed : OpClass.Statement .qntRed := ⟨rfl, by simp [opNumber]⟩
theorem OpClass.qntCmp : OpClass.Statement .qntCmp := ⟨rfl, by simp [opNumber]⟩
theorem OpClass.qntOut : OpClass.Statement .qntOut := ⟨rfl, by simp [opNumber]⟩

end Sys2Proof.Laws
end

