-- ==== Sys2Proof/Tests/Slice0.lean ====
section
/-! SUPPORT. Tests: words written out from the spec's encodings, single steps from the spec's examples and vectors
(95_test_vectors.md), and for every statement with hypotheses a state and operands that meet them. -/

namespace Sys2Proof.Tests

open Sys2Proof.Machine

/-- The machine after `ENV.RESET` and `ORCH.INIT`. -/
def ready : State := State.reset.loadTables.goto .fill

/-- The machine in a phase of the foreground, with no handler pending or active. -/
def inPhase (p : Phase) : State := ready.goto p

/-- The machine in a sub-step of a synthesis activation. -/
def inSynthesis (p : SynPhase) : State := { ready with synAct := true, synPh := p }

/-- The machine in a phase, with a frame of zeros. -/
def framed (p : Phase) : State :=
  { inPhase p with re := Memory.tabulate 1024 fun _ => 0, im := Memory.tabulate 1024 fun _ => 0 }

/-- What a step leaves in one place, if it answers a next state. -/
def after {α : Type} (r : Result) (f : State → α) : Option α :=
  match r with
  | .next t => some (f t)
  | .fault _ => none
  | .refused _ => none

/-- What a read gives, if it gives a value. -/
def value {α : Type} (r : Except Fault α) : Option α :=
  match r with
  | .ok v => some v
  | .error _ => none

section WellFormed

/-- V-ENC-7, V-ENC-8, V-ACQ-13: the operand of `ENV.EOC` must fit the converter. -/
theorem test_wellFormed_refuses_wide_sample :
    (Instr.envEoc 4096).wellFormed 12 = false ∧ (Instr.envEoc 4095).wellFormed 12 = true ∧
      (Instr.envEoc 65535).wellFormed 16 = true := by decide

end WellFormed

section Configuration

/-- 00_scope.md R7: `TW` is ten pairs of values of the format, and a number above the 32-bit patterns is none. -/
theorem test_twiddles_are_patterns :
    twiddlesValid .binary32 (List.replicate 10 (0x3F800000, 0xFFFFFFFF)) = true ∧
      twiddlesValid .binary32 (List.replicate 10 (0x100000000, 0)) = false ∧
      twiddlesValid .binary32 (List.replicate 9 (0, 0)) = false := by decide

end Configuration

section Words

/-- 30_encoding.md R109, class 0; V-ENC-1. -/
theorem test_words_environment :
    decodeWord 0x01000000 = .ok .envReset ∧ decodeWord 0x02000000 = .ok .envAtick ∧
      decodeWord 0x03000123 = .ok (.envEoc 0x123) ∧ decodeWord 0x04000000 = .ok .envStick := by decide

/-- R109, class 1. -/
theorem test_words_acquisition :
    decodeWord 0x10000000 = .ok .acqEnter ∧ decodeWord 0x11000000 = .ok .acqWait ∧
      decodeWord 0x12000000 = .ok .acqStore := by decide

/-- R109, class 2. -/
theorem test_words_synthesis :
    decodeWord 0x20000000 = .ok .synEnter ∧ decodeWord 0x21000000 = .ok .synStep ∧
      decodeWord 0x22000000 = .ok .synAdv ∧ decodeWord 0x23000000 = .ok .synMix ∧
      decodeWord 0x24000000 = .ok .synOut := by decide

/-- R109, class 3. -/
theorem test_words_orchestrator :
    decodeWord 0x30000000 = .ok .orchInit ∧ decodeWord 0x31000000 = .ok .orchPoll ∧
      decodeWord 0x32000000 = .ok .orchPub := by decide

/-- R109, class 4; V-ENC-2. -/
theorem test_words_analyzer :
    decodeWord 0x40000000 = .ok .fftLoad ∧ decodeWord 0x41000000 = .ok .fftRev ∧
      decodeWord 0x42000000 = .ok .fftStg ∧ decodeWord 0x43000000 = .ok .fftBfy ∧
      decodeWord 0x44000000 = .ok .fftTwn ∧ decodeWord 0x45000000 = .ok .pkInit ∧
      decodeWord 0x46000000 = .ok .pkScan ∧ decodeWord 0x47000000 = .ok .pkDone := by decide

/-- R109, class 5. -/
theorem test_words_quantizer :
    decodeWord 0x50000000 = .ok .qntStart ∧ decodeWord 0x51000000 = .ok .qntRed ∧
      decodeWord 0x52000000 = .ok .qntCmp ∧ decodeWord 0x53000000 = .ok .qntOut := by decide

/-- V-ENC-3 to V-ENC-6: illegal words, each by the reason it is illegal. -/
theorem test_words_illegal :
    decodeWord 0 = .error (.unknownOp 0) ∧ decodeWord 0x02000001 = .error (.nonzeroField 2) ∧
      decodeWord 0x03010123 = .error (.nonzeroField 3) ∧ decodeWord 0x05000000 = .error (.unknownOp 5) ∧
      decodeWord 0x13000000 = .error (.unknownOp 0x13) ∧ decodeWord 0x25000000 = .error (.unknownOp 0x25) ∧
      decodeWord 0x33000000 = .error (.unknownOp 0x33) ∧ decodeWord 0x48000000 = .error (.unknownOp 0x48) ∧
      decodeWord 0x54000000 = .error (.unknownOp 0x54) ∧ decodeWord 0xFF000000 = .error (.unknownOp 0xFF) := by
  decide

/-- V-ENC-1, V-ENC-2: the bytes of a word, least significant first. -/
theorem test_encode_bytes :
    encode (.envEoc 0x123) = [0x23, 0x01, 0x00, 0x03] ∧ encode .fftBfy = [0x00, 0x00, 0x00, 0x43] := by decide

/-- V-ENC-10, V-ENC-11: the words of two pseudo-operations. -/
theorem test_pseudo_operations :
    (acqRunOperations 0x800).map encodeWord = [0x02000000, 0x03000800, 0x10000000, 0x12000000] ∧
      synRunOperations.map encodeWord =
        [0x04000000, 0x20000000, 0x21000000, 0x22000000, 0x23000000, 0x24000000] := by decide

/-- V-ENC-9: decimal and hexadecimal text of one operation. -/
theorem test_trace_text :
    readTrace "ENV.EOC 291" = readTrace "ENV.EOC 0x123 ; a comment" := by decide +kernel

end Words

section Environment

/-- R280: after a reset with a fault recorded. -/
theorem test_envReset :
    after (exec .envReset { ready with status := 0b1010, acqAct := true, tuneFreq := 5 })
      (fun t => (t.seq, t.status, t.acqAct, t.tuneFreq, t.tuneLabel)) = some (.boot, 0, false, 0, 0x2020) := by
  decide

/-- V-ACQ-5: the second tick is lost and recorded. -/
theorem test_envAtick_lost :
    after (exec .envAtick { ready with acqPend := true }) (fun t => (t.acqPend, t.status)) = some (true, 0b0010) := by
  decide

/-- V-ACQ-12: a tick in `BOOT` is refused. -/
theorem test_envAtick_boot : exec .envAtick State.reset = .refused (.notEnabled .envAtick) := by rfl

/-- R132: example. -/
theorem test_envEoc :
    after (exec (.envEoc 0x123) ready) (fun t => (t.adcDr, t.adcEoc)) = some (0x123, true) := by decide

/-- R202: example. -/
theorem test_envStick_lost :
    after (exec .envStick { ready with synPend := true }) (fun t => (t.synPend, t.status)) = some (true, 0b0100) := by
  decide

end Environment

section Acquisition

/-- R134: example. -/
theorem test_acqEnter :
    after (exec .acqEnter { ready with acqPend := true, acqWcnt := 7 })
      (fun t => (t.acqPend, t.acqAct, t.acqWcnt)) = some (false, true, 0) := by decide

/-- The default configuration with a wait bound of one poll. -/
def impatient : ValidConfig := ⟨{ Config.standard with acqWaitMax := some 1 }, by decide +kernel⟩

/-- V-ACQ-10: with a bound of 1 the first poll times out. -/
theorem test_acqWait_times_out :
    after (exec .acqWait { ready with cfg := impatient, acqAct := true })
      (fun t => (t.acqWcnt, t.status, t.acqAct)) = some (1, 0b0001, false) := by decide

/-- R135: the count saturates. -/
theorem test_acqWait_saturates :
    after (exec .acqWait { ready with acqAct := true, acqWcnt := 0xFFFFFFFF }) (fun t => (t.acqWcnt, t.acqAct)) =
      some (0xFFFFFFFF, true) := by decide

/-- R136: example, V-ACQ-7: the index wraps. -/
theorem test_acqStore_wraps :
    after (exec .acqStore { ready with acqAct := true, adcEoc := true, adcDr := 0xABC, wrIdx := 1023 })
      (fun t => (value (t.readSamp 1023), t.wrIdx, t.adcEoc, t.acqAct)) = some (some 0xABC, 0, false, false) := by
  decide

end Acquisition

section Synthesis

/-- R203: example. -/
theorem test_synEnter :
    after (exec .synEnter { ready with synPend := true }) (fun t => (t.synPend, t.synAct, t.synPh)) =
      some (false, true, .step) := by decide

/-- R204: 440 Hz. -/
theorem test_synStep :
    after (exec .synStep { inSynthesis .step with tuneFreq := 4400000 }) (fun t => t.osc) =
      some [{ inc := 1441792, acc := 0 }] := by decide

/-- R204: a frequency of zero clears the phase. -/
theorem test_synStep_zero :
    after (exec .synStep { inSynthesis .step with osc := [{ inc := 9, acc := 12345678 }] }) (fun t => t.osc) =
      some [{ inc := 0, acc := 0 }] := by decide

/-- R205: example. -/
theorem test_synAdv_wraps :
    after (exec .synAdv { inSynthesis .adv with osc := [{ inc := 1441792, acc := 64880640 }] })
      (fun t => t.osc) = some [{ inc := 1441792, acc := 786432 }] := by decide

/-- R206: example. -/
theorem test_synMix :
    after (exec .synMix { inSynthesis .mix with osc := [{ inc := 0, acc := 1441792 }] }) (fun t => t.synAcc) =
      some 4515 := by decide +kernel

/-- R207: both examples, and the floor of corner case (a). -/
theorem test_synOut :
    after (exec .synOut { inSynthesis .out with synAcc := 4515 }) (fun t => (t.dacOut, t.synAct)) =
        some (2330, false) ∧
      after (exec .synOut { inSynthesis .out with synAcc := -6544 }) (fun t => t.dacOut) = some 1639 ∧
      after (exec .synOut { inSynthesis .out with synAcc := -1 }) (fun t => t.dacOut) = some 2047 := by decide

end Synthesis

section Orchestrator

/-- R221: example. -/
theorem test_orchInit :
    after (exec .orchInit State.reset) (fun t =>
      (t.seq, value (t.readNote 4 9), value (t.readLabel 9), value (t.readWave 250), value (t.readWave 999))) =
      some (.fill, some 4400000, some 0x2041, some 32767, some (-206)) := by decide +kernel

/-- R222: example. -/
theorem test_orchPoll :
    after (exec .orchPoll { ready with wrIdx := 1022 }) (fun t => t.seq) = some .fill ∧
      after (exec .orchPoll { ready with wrIdx := 1023, fi := 9 }) (fun t => (t.seq, t.fi)) = some (.load, 0) := by
  decide

/-- R223: example. -/
theorem test_orchPub :
    after (exec .orchPub { inPhase .pub with qLabel := 0x2041, qFreq := 4400000 })
      (fun t => (t.tuneLabel, t.tuneFreq, t.seq)) = some (0x2041, 4400000, .fill) := by decide

/-- R247: the foreground does not step while a tick is pending. -/
theorem test_orchPoll_blocked :
    exec .orchPoll { ready with synPend := true } = .refused (.notEnabled .orchPoll) := by rfl

end Orchestrator

section Analyzer

/-- R156: example. -/
theorem test_fftLoad :
    after (exec .fftLoad { inPhase .load with fi := 5, samp := [(5, 0x0800)] })
      (fun t => (value (t.readRe 5), value (t.readIm 5), t.fi)) = some (some 0x45000000, some 0, 6) := by
  decide +kernel

/-- R157: example. -/
theorem test_fftRev :
    after (exec .fftRev { inPhase .rev with fi := 1, fj := 512, re := [(1, 11), (512, 22)], im := [(1, 33), (512, 44)] })
      (fun t => (t.re, t.im, t.fj, t.fi)) =
      some ([(1, 22), (512, 11)], [(1, 44), (512, 33)], 256, 2) := by decide

/-- R157 (d): the last step. -/
theorem test_fftRev_last :
    after (exec .fftRev { inPhase .rev with fi := 1022, fj := 511 }) (fun t => (t.fj, t.fstg, t.seq)) =
      some (1023, 1, .stg) := by decide

/-- R159: example. -/
theorem test_fftStg :
    after (exec .fftStg { inPhase .stg with fstg := 3 }) (fun t => (t.fhalf, t.cRe, t.cIm, t.wRe, t.wIm, t.seq)) =
      some (4, 0x3F3504F3, 0xBF3504F3, 0x3F800000, 0, .bfy) := by decide +kernel

/-- R160: example, 3.0 and 5.0 become 8.0 and -2.0. -/
theorem test_fftBfy :
    after (exec .fftBfy { inPhase .bfy with
      fhalf := 1, wRe := 0x3F800000, re := [(0, 0x40400000), (1, 0x40A00000)], im := [(0, 0), (1, 0)] })
      (fun t => (t.re, t.fgrp, t.seq)) = some ([(0, 0x41000000), (1, 0xC0000000)], 2, .bfy) := by decide +kernel

/-- R161: example, the second rotation of stage 3 with its drift. -/
theorem test_fftTwn :
    after (exec .fftTwn { inPhase .twn with
      fstg := 3, fhalf := 4, fj := 1, cRe := 0x3F3504F3, cIm := 0xBF3504F3, wRe := 0x3F3504F3, wIm := 0xBF3504F3 })
      (fun t => (t.wRe, t.wIm, t.fj, t.seq)) = some (0, 0xBF7FFFFF, 2, .bfy) := by decide +kernel

/-- R164: example, 3.0 and -4.0 give 25.0. -/
theorem test_pkInit :
    after (exec .pkInit { inPhase .pki with re := [(1, 0x40400000)], im := [(1, 0xC0800000)] })
      (fun t => (t.pkMag, t.pkBin, t.pkK)) = some (0x41C80000, 1, 2) := by decide +kernel

/-- R165: example, an equal magnitude does not replace the best. -/
theorem test_pkScan_tie :
    after (exec .pkScan { inPhase .pks with
      pkMag := 0x41C80000, pkBin := 1, pkK := 2, re := [(2, 0x40400000)], im := [(2, 0xC0800000)] })
      (fun t => (t.pkBin, t.pkK, t.seq)) = some (1, 3, .pks) := by decide +kernel

/-- R165: a greater magnitude at the last bin. -/
theorem test_pkScan_last :
    after (exec .pkScan { inPhase .pks with
      pkMag := 0x41C80000, pkBin := 1, pkK := 511, re := [(511, 0x40A00000)], im := [(511, 0xC0800000)] })
      (fun t => (t.pkBin, t.pkK, t.seq)) = some (511, 512, .pkd) := by decide +kernel

/-- R166: example. -/
theorem test_pkDone :
    after (exec .pkDone { inPhase .pkd with pkBin := 19 }) (fun t => (t.domBin, t.domFreqE4)) =
      some (19, 4453125) := by decide

/-- 95_test_vectors.md section 2.3, single-operation checks. -/
theorem test_float_operations :
    b32Mul 0x3F3504F3 0x3F3504F3 = 0x3EFFFFFF ∧ b32Add 0xBEFFFFFF 0xBEFFFFFF = 0xBF7FFFFF ∧
      b32Sub 0x3EFFFFFF 0x3EFFFFFF = 0 ∧ b32Sub 0x80000000 0x80000000 = 0 ∧ b32OfNat 4095 = 0x457FF000 ∧
      b32OfNat 65535 = 0x477FFF00 := by decide +kernel

end Analyzer

section Quantizer

/-- R181: example. -/
theorem test_qntStart :
    after (exec .qntStart { inPhase .qst with domFreqE4 := 4453125, qOct := 3 })
      (fun t => (t.qIn, t.qF, t.qOct, t.seq)) = some (4453125, 4453125, 0, .qrd) := by decide

/-- R182: the first halving of the example loses its low bit. -/
theorem test_qntRed_halves :
    after (exec .qntRed { inPhase .qrd with qF := 4453125 }) (fun t => (t.qF, t.qOct, t.seq)) =
      some (2226562, 1, .qrd) := by decide

/-- R182: the exit of the example. -/
theorem test_qntRed_leaves :
    after (exec .qntRed { inPhase .qrd with qF := 278320, qOct := 4 })
      (fun t => (t.qBest, t.qBdiff, t.qN, t.seq)) = some (0, 114804, 1, .qcm) := by decide +kernel

/-- R183: example. -/
theorem test_qntCmp :
    after (exec .qntCmp { inPhase .qcm with qF := 278320, qN := 9, qBdiff := 18755, qBest := 8 })
      (fun t => (t.qBest, t.qBdiff, t.qN)) = some (9, 3320, 10) := by decide +kernel

/-- R183, R187 (c): a tie keeps the lower index. -/
theorem test_qntCmp_tie :
    after (exec .qntCmp { inPhase .qcm with qF := 188997, qN := 3, qBdiff := 5457, qBest := 2 })
      (fun t => (t.qBest, t.qN)) = some (2, 4) := by decide +kernel

/-- R185: both examples. -/
theorem test_qntOut :
    after (exec .qntOut { inPhase .qout with qOct := 4, qBest := 9 }) (fun t => (t.qLabel, t.qFreq, t.status)) =
        some (0x2041, 4400000, 0) ∧
      after (exec .qntOut { inPhase .qout with qOct := 9 }) (fun t => (t.qLabel, t.qFreq, t.status, t.qOct)) =
        some (0x2043, 41860090, 0b1000, 9) := by decide +kernel

end Quantizer

section Machine

/-- How a program comes to run: a placed word runs as the very next step. -/
theorem test_withFetchWord :
    after (step (State.reset.withFetchWord 32 0x03000123)) (fun t => (t.adcDr, t.trace)) = some (0x123, []) := by
  decide +kernel

/-- R38: `IRQ` of V-ACQ-6, and a number past the table. -/
theorem test_port :
    ({ ready with acqAct := true, acqPend := true } : State).portWord 1 = 0x03 ∧ ready.portWord 14 = 0 ∧
      ready.portWord 18 = 0 := by decide

end Machine

section Witnesses

theorem ready_idle : ready.Idle := ⟨rfl, rfl, rfl, rfl⟩

theorem inPhase_idle (p : Phase) : (inPhase p).seq = p ∧ (inPhase p).Idle := ⟨rfl, rfl, rfl, rfl, rfl⟩

theorem inPhase_tables (p : Phase) : (inPhase p).TablesLoaded :=
  (tablesLoaded_loadTables State.reset).congr rfl rfl rfl rfl

/-- After `ORCH.INIT`, in any configuration and at any write index, the invariant holds. -/
theorem ready_inv (c : ValidConfig) (w : BitVec 10) :
    State.Inv { (State.resetWith c).loadTables with seq := .fill, wrIdx := w } where
  bootIdle := fun h => nomatch h
  tables := fun _ => (tablesLoaded_loadTables (State.resetWith c)).congr rfl rfl rfl rfl
  synPhase := ⟨fun h => (nomatch h), fun h => absurd rfl h⟩
  channels := List.length_replicate
  phases := fun o ho => by
    have h := List.eq_of_mem_replicate ho
    simp [h]
  mixBound := fun h => nomatch h
  adcWidth := Nat.two_pow_pos _
  phase := trivial

theorem ready_invariant : ready.Inv := ready_inv ⟨Config.standard, Config.standard_valid⟩ 0

theorem framed_reads (p : Phase) {k : Nat} (hk : k < 1024) :
    (framed p).readRe k = .ok 0 ∧ (framed p).readIm k = .ok 0 :=
  ⟨readElement_ok.2 ⟨hk, by simp [framed, Memory.read, Memory.lookup_tabulate, hk]⟩,
    readElement_ok.2 ⟨hk, by simp [framed, Memory.read, Memory.lookup_tabulate, hk]⟩⟩

theorem framed_full (p : Phase) : (framed p).FrameFull :=
  fun _ hk => ⟨0, 0, framed_reads p hk⟩

theorem test_witness_EncodeInvertsDecode :
    decodeWord 0x0300FFFF = .ok (.envEoc 0xFFFF) ∧ decodeWord 0x53000000 = .ok .qntOut := by decide

theorem test_witness_IllegalWordsAreRefused :
    ({ State.reset with trace := wordBytes 0 } : State).trace = wordBytes 0 ++ [] ∧
      decodeWord 0 = .error (.unknownOp 0) := by decide

theorem test_witness_StepRunsTheDecodedOperation :
    decode ({ State.reset with trace := [0x00, 0x00, 0x00, 0x30, 0x00] } : State).trace =
      .ok (.orchInit, [0x00]) := by decide

theorem test_witness_StepWithoutTraceRunsAnEnabledOperation : State.reset.trace = [] := rfl

theorem test_witness_ResetStateEnablesOnlyBoot : ∃ t, exec .envReset ready = .next t := ⟨_, rfl⟩

theorem test_witness_AcquisitionTickIsPendedOrLost :
    (({ ready with acqPend := true } : State).seq ≠ .boot ∧ ({ ready with acqPend := true } : State).acqPend = true) ∧
      (ready.seq ≠ .boot ∧ ready.acqPend = false) ∧ State.reset.seq = .boot := by decide

theorem test_witness_ConversionLatchesTheSample :
    (4095 : BitVec 16).toNat < 2 ^ State.reset.cfg.val.adcBits ∧
      ¬(4096 : BitVec 16).toNat < 2 ^ State.reset.cfg.val.adcBits := by decide

theorem test_witness_SynthesisTickIsPendedOrLost :
    (({ ready with synPend := true } : State).seq ≠ .boot ∧ ({ ready with synPend := true } : State).synPend = true) ∧
      (ready.seq ≠ .boot ∧ ready.synPend = false) ∧ State.reset.seq = .boot := by decide

theorem test_witness_AcquisitionHandlerIsEntered :
    (({ ready with acqPend := true } : State).acqPend = true ∧ ({ ready with acqPend := true } : State).acqAct = false) ∧
      ¬(ready.acqPend = true ∧ ready.acqAct = false) := by decide

/-- The guard with an unbounded wait, the guard with a bound just reached, and no activation. -/
theorem test_witness_PollCountsAndTimesOut :
    (({ ready with acqAct := true } : State).acqAct = true ∧ ({ ready with acqAct := true } : State).adcEoc = false ∧
        ∀ m, ready.cfg.val.acqWaitMax = some m → min (ready.acqWcnt.toNat + 1) (2 ^ 32 - 1) < m) ∧
      (impatient.val.acqWaitMax = some 1 ∧ 1 ≤ min (ready.acqWcnt.toNat + 1) (2 ^ 32 - 1)) ∧
      ¬(ready.acqAct = true ∧ ready.adcEoc = false) :=
  ⟨⟨rfl, rfl, fun _ h => nomatch h⟩, by decide, by decide⟩

theorem test_witness_StoreWritesTheRingAndAdvances :
    (({ ready with acqAct := true, adcEoc := true, wrIdx := 1023 } : State).acqAct = true ∧
        ({ ready with acqAct := true, adcEoc := true, wrIdx := 1023 } : State).adcEoc = true ∧
        Memory.wf 1024 ready.cfg.val.ringResetAt ready.samp = true) ∧
      ¬(ready.acqAct = true ∧ ready.adcEoc = true) := by decide

theorem test_witness_WriteIndexCountsTheStores :
    .envReset ∉ acqRunOperations 0xABC ∧
      after (runOperations (acqRunOperations 0xABC) { ready with wrIdx := 1023 }) (fun t => t.wrIdx) = some 0 := by
  decide

/-- Two acquisitions, one with the largest 12-bit sample; the last two slots before the wrap. -/
theorem test_witness_RingHoldsTheLastSamples :
    (ready.seq ≠ .boot ∧ ready.acqPend = false ∧ ready.acqAct = false ∧
      Memory.wf 1024 ready.cfg.val.ringResetAt ready.samp = true ∧ ready.cfg.val.adcBits = 12 ∧
      ([0, 4095] : List (BitVec 16))[1]? = some 4095 ∧ 2 ≤ 1 + 1024 ∧ ready.wrIdx.toNat = 0) ∧
      (∀ v ∈ ([0, 4095] : List (BitVec 16)), v.toNat < 2 ^ 12) ∧ ∀ j, j < 2 → (0 + j) % 1024 ≠ 2 :=
  ⟨by decide, by simp, by omega⟩

theorem test_witness_SynthesisHandlerIsEntered :
    (({ ready with synPend := true } : State).synPend = true ∧ ({ ready with synPend := true } : State).synAct = false) ∧
      ¬(ready.synPend = true ∧ ready.synAct = false) := by decide

/-- A channel with target 0 and one with target 440 Hz. -/
theorem test_witness_StepsFollowThePublishedFrequency :
    ((inSynthesis .step).synAct = true ∧ (inSynthesis .step).synPh = .step ∧
        (inSynthesis .step).osc[0]? = some { inc := 0, acc := 0 } ∧
        (inSynthesis .step).cfg.val.channelFrequency 0 0 = 0 ∧
        (inSynthesis .step).cfg.val.channelFrequency 0 4400000 ≠ 0) ∧
      ¬(ready.synAct = true ∧ ready.synPh = .step) := by decide

theorem test_witness_PhasesAdvanceByTrueRemainder :
    ((inSynthesis .adv).synAct = true ∧ (inSynthesis .adv).synPh = .adv ∧
        (inSynthesis .adv).osc[0]? = some { inc := 0, acc := 0 }) ∧
      ¬(ready.synAct = true ∧ ready.synPh = .adv) := by decide

theorem test_witness_MixSumsTheChannels :
    ((inSynthesis .mix).synAct = true ∧ (inSynthesis .mix).synPh = .mix ∧
        (∀ o ∈ (inSynthesis .mix).osc, (inSynthesis .mix).readWave (o.acc.toNat / 2 ^ 16) =
          .ok ((fun _ => 0 : Oscillator → BitVec 16) o)) ∧
        -2 ^ 31 ≤ (((inSynthesis .mix).osc.map fun _ => (0#16).toInt).sum) ∧
        (((inSynthesis .mix).osc.map fun _ => (0#16).toInt).sum) < 2 ^ 31) ∧
      ¬(ready.synAct = true ∧ ready.synPh = .mix) := by
  refine ⟨⟨rfl, rfl, fun o ho => ?_, by decide, by decide⟩, by decide⟩
  obtain rfl : o = { inc := 0, acc := 0 } := by simpa using (show o ∈ [{ inc := 0, acc := 0 }] from ho)
  exact (inPhase_tables .fill).2.2 0 (by decide)

/-- The bound of the sum, at its edge. -/
theorem test_witness_OutputCodeIsExact :
    ((inSynthesis .out).synAct = true ∧ (inSynthesis .out).synPh = .out ∧
        (-32767 : Word).toInt.natAbs ≤ (inSynthesis .out).cfg.val.nch * 32767) ∧
      ¬(ready.synAct = true ∧ ready.synPh = .out) := by decide

theorem test_witness_ZeroFrequencyIsSilent :
    ready.Inv ∧ ready.seq ≠ .boot ∧ ready.synPend = false ∧ ready.synAct = false ∧
      ready.osc[0]? = some { inc := 0, acc := 0 } ∧ ready.cfg.val.channelFrequency 0 ready.tuneFreq = 0 ∧
      (∀ c, c < ready.cfg.val.nch → ready.cfg.val.channelFrequency c ready.tuneFreq = 0) ∧
      ready.cfg.val.nch * 32767 < 2 ^ 31 ∧ ready.cfg.val = Config.standard ∧ ready.tuneFreq = 0 :=
  ⟨ready_invariant, (fun h : Phase.fill = Phase.boot => nomatch h), rfl, rfl, rfl, rfl, fun _ _ => rfl,
    show 1 * 32767 < 2 ^ 31 by decide, rfl, rfl⟩

theorem test_witness_PhaseAccumulatesTheStep :
    State.Inv { ready with tuneFreq := 4400000 } ∧ ready.seq ≠ .boot ∧ ready.synPend = false ∧
      ready.synAct = false ∧ ready.osc[0]? = some { inc := 0, acc := 0 } ∧
      ready.cfg.val.channelFrequency 0 4400000 ≠ 0 := by
  have h := ready_inv ⟨Config.standard, Config.standard_valid⟩ 0
  exact ⟨⟨h.bootIdle, fun hb => (h.tables hb).congr rfl rfl rfl rfl, h.synPhase, h.channels, h.phases, h.mixBound,
    h.adcWidth, trivial⟩, by decide, rfl, rfl, by decide, by decide⟩

theorem test_witness_InitFillsTheTables :
    (State.reset.seq = .boot ∧ State.reset.Idle) ∧ ¬(ready.seq = .boot ∧ ready.Idle) :=
  ⟨⟨rfl, rfl, rfl, rfl, rfl⟩, fun h => nomatch h.1⟩

/-- The default configuration under SNAPSHOT. -/
def careful : ValidConfig := ⟨{ Config.standard with loadPolicy := .snapshot }, by decide +kernel⟩

/-- The machine after `ORCH.INIT` under SNAPSHOT, at the last write index. -/
def full : State := { (State.resetWith careful).loadTables with seq := .fill, wrIdx := 1023 }

theorem test_witness_PollTriggersAtTheLastSlot :
    (ready.seq = .fill ∧ ready.Idle ∧ ready.wrIdx.toNat ≠ 1023 ∧ ready.cfg.val.loadPolicy = .racy) ∧
      (full.seq = .fill ∧ full.Idle ∧ full.wrIdx.toNat = 1023 ∧ full.cfg.val.loadPolicy = .snapshot) ∧
      ¬(State.reset.seq = .fill ∧ State.reset.Idle) :=
  ⟨⟨rfl, ready_idle, by decide, rfl⟩, ⟨rfl, ⟨rfl, rfl, rfl, rfl⟩, rfl, rfl⟩, fun h => nomatch h.1⟩

theorem test_witness_PublishIsAtomic :
    ((inPhase .pub).seq = .pub ∧ (inPhase .pub).Idle) ∧ ¬(ready.seq = .pub ∧ ready.Idle) :=
  ⟨inPhase_idle _, fun h => nomatch h.1⟩

/-- The triggering poll under SNAPSHOT and one load after it: element 0 is loaded from slot 0. -/
theorem test_witness_SnapshotFrameIsTheRingAtTheTrigger :
    full.Inv ∧ full.cfg.val.loadPolicy = .snapshot ∧ full.seq = .fill ∧ full.wrIdx.toNat = 1023 ∧
      (∃ u t, exec .orchPoll full = .next u ∧ runOperations [.fftLoad] u = .next t ∧ t.seq = .load ∧ 0 < t.fi.toNat) ∧
      full.readSamp 0 = .ok 0 := by
  refine ⟨ready_inv careful 1023, rfl, rfl, rfl, ⟨full.trigger, ?_⟩, by decide⟩
  have hr : full.trigger.readSource 0 = .ok 0 := (readSnap_takeSnapshot (s := full) (by decide)).trans (by decide)
  refine ⟨{ full.trigger.writeFrame 0 (full.fmt.ofNat 0) full.fmt.zero with fi := 1 },
    guarded_enabled (i := .orchPoll) (s := full) rfl, ?_, rfl, by decide⟩
  refine runOperations_cons (ops := []) ((guarded_enabled (i := .fftLoad) (s := full.trigger) rfl).trans ?_)
  rw [show full.trigger.fi.toNat = 0 from rfl, hr]
  rfl

theorem test_witness_AnalysisCycleCompletes :
    State.Inv { ready with wrIdx := 1023 } ∧ ready.seq = .fill ∧ ready.Idle ∧ (1023 : BitVec 10).toNat = 1023 :=
  ⟨ready_inv ⟨Config.standard, Config.standard_valid⟩ 1023, rfl, ready_idle, rfl⟩

/-- The first element under RACY, the last one under SNAPSHOT, and another phase. -/
theorem test_witness_LoadConvertsOneSample :
    ((inPhase .load).seq = .load ∧ (inPhase .load).Idle ∧ (inPhase .load).cfg.val.loadPolicy = .racy ∧
        (inPhase .load).readSamp (inPhase .load).fi.toNat = .ok 0) ∧
      (careful.val.loadPolicy = .snapshot ∧
        ({ inPhase .load with fi := 1023, snap := [(1023, 7)] } : State).readSnap 1023 = .ok 7) ∧
      ¬(ready.seq = .load ∧ ready.Idle) :=
  ⟨⟨rfl, ready_idle, rfl, by decide⟩, by decide, fun h => nomatch h.1⟩

/-- A swap with one leading one, no swap with none, the most leading ones, and another phase. -/
theorem test_witness_ReversalStepSwapsAndWalks :
    ((framed .rev).seq = .rev ∧ (framed .rev).Idle ∧ 1 ≤ 1022 ∧ (512 : BitVec 10).toNat / 2 ^ (9 - 1) = 2 ^ (1 + 1) - 2 ∧
        (framed .rev).readRe 1 = .ok 0 ∧ (framed .rev).readIm 1 = .ok 0 ∧
        (framed .rev).readRe 512 = .ok 0 ∧ (framed .rev).readIm 512 = .ok 0) ∧
      ((0 : BitVec 10).toNat / 2 ^ (9 - 0) = 2 ^ (0 + 1) - 2 ∧ ¬(0 : BitVec 11).toNat < (0 : BitVec 10).toNat) ∧
      (1022 : BitVec 10).toNat / 2 ^ (9 - 9) = 2 ^ (9 + 1) - 2 ∧ ¬(ready.seq = .rev ∧ ready.Idle) :=
  ⟨⟨rfl, ready_idle, by decide, by decide, (framed_reads _ (by decide)).1, (framed_reads _ (by decide)).2,
    (framed_reads _ (by decide)).1, (framed_reads _ (by decide)).2⟩, by decide, by decide, fun h => nomatch h.1⟩

theorem test_witness_ReversalPhasePermutesTheFrame :
    (framed .rev).seq = .rev ∧ (framed .rev).Idle ∧ (framed .rev).fi = 0 ∧ (framed .rev).fj = 0 ∧
      (framed .rev).FrameFull :=
  ⟨rfl, ready_idle, rfl, rfl, framed_full _⟩

/-- The first and the last stage. -/
theorem test_witness_StageSetsUpItsRegisters :
    ((inPhase .stg).seq = .stg ∧ (inPhase .stg).Idle ∧ 1 ≤ (inPhase .stg).fstg.toNat ∧
        (inPhase .stg).cfg.val.tw[(inPhase .stg).fstg.toNat - 1]? = some (0xBF800000, 0)) ∧
      (inPhase .stg).cfg.val.tw[(10 : BitVec 4).toNat - 1]? = some (0x3F7FFEC4, 0xBBC90F88) ∧
      ¬(ready.seq = .stg ∧ ready.Idle) :=
  ⟨⟨rfl, ready_idle, by decide, by decide⟩, by decide, fun h => nomatch h.1⟩

/-- The first pair of stage 1, the last group of stage 1, and another phase. -/
theorem test_witness_ButterflyCombinesTwoElements :
    ((framed .bfy).seq = .bfy ∧ (framed .bfy).Idle ∧ (framed .bfy).fgrp.toNat + 2 * (framed .bfy).fhalf.toNat ≤ 1024 ∧
        (framed .bfy).readRe 1 = .ok 0 ∧ (framed .bfy).readIm 1 = .ok 0 ∧ (framed .bfy).readRe 0 = .ok 0 ∧
        (framed .bfy).readIm 0 = .ok 0) ∧
      (1022 + 2 * (framed .bfy).fhalf.toNat ≤ 1024 ∧ (framed .bfy).readRe 1023 = .ok 0 ∧
        (framed .bfy).readIm 1023 = .ok 0 ∧ (framed .bfy).readRe 1022 = .ok 0 ∧ (framed .bfy).readIm 1022 = .ok 0) ∧
      ¬(ready.seq = .bfy ∧ ready.Idle) :=
  ⟨⟨rfl, ready_idle, by decide, (framed_reads _ (by decide)).1, (framed_reads _ (by decide)).2,
      (framed_reads _ (by decide)).1, (framed_reads _ (by decide)).2⟩,
    ⟨by decide, (framed_reads _ (by decide)).1, (framed_reads _ (by decide)).2, (framed_reads _ (by decide)).1,
      (framed_reads _ (by decide)).2⟩, fun h => nomatch h.1⟩

/-- Within a stage, at the end of a stage, and at the end of the last stage. -/
theorem test_witness_TwiddleRotatesAndMovesOn :
    ((inPhase .twn).seq = .twn ∧ (inPhase .twn).Idle) ∧ (0 : BitVec 10).toNat + 1 < (2 : BitVec 10).toNat ∧
      (¬(1 : BitVec 10).toNat + 1 < (2 : BitVec 10).toNat ∧ (9 : BitVec 4).toNat < 10) ∧
      (¬(511 : BitVec 10).toNat + 1 < (512 : BitVec 10).toNat ∧ ¬(10 : BitVec 4).toNat < 10) ∧
      ¬(ready.seq = .twn ∧ ready.Idle) :=
  ⟨inPhase_idle _, by decide, by decide, by decide, fun h => nomatch h.1⟩

theorem test_witness_PeakSearchStartsAtBinOne :
    ((framed .pki).seq = .pki ∧ (framed .pki).Idle ∧ (framed .pki).readRe 1 = .ok 0 ∧ (framed .pki).readIm 1 = .ok 0) ∧
      ¬(ready.seq = .pki ∧ ready.Idle) :=
  ⟨⟨rfl, ready_idle, framed_reads _ (by decide)⟩, fun h => nomatch h.1⟩

/-- The first bin scanned and the last. -/
theorem test_witness_PeakScanKeepsTheStrictlyGreater :
    ((framed .pks).seq = .pks ∧ (framed .pks).Idle ∧ (framed .pks).pkK.toNat ≤ 511 ∧
        (framed .pks).readRe (framed .pks).pkK.toNat = .ok 0 ∧ (framed .pks).readIm (framed .pks).pkK.toNat = .ok 0) ∧
      ((511 : BitVec 10).toNat ≤ 511 ∧ (framed .pks).readRe 511 = .ok 0 ∧ (framed .pks).readIm 511 = .ok 0) ∧
      b32Gt 0x3F800000 0 = true ∧ b32Gt 0 0 = false ∧ ¬(ready.seq = .pks ∧ ready.Idle) :=
  ⟨⟨rfl, ready_idle, by decide, framed_reads _ (by decide)⟩, ⟨by decide, framed_reads _ (by decide)⟩, by decide,
    by decide, fun h => nomatch h.1⟩

theorem test_witness_PeakDeliversItsFrequency :
    ((inPhase .pkd).seq = .pkd ∧ (inPhase .pkd).Idle) ∧ ¬(ready.seq = .pkd ∧ ready.Idle) :=
  ⟨inPhase_idle _, fun h => nomatch h.1⟩

/-- An all-zero frame: every squared magnitude is `+0.0`. -/
theorem test_witness_PeakSearchFindsTheLowestMaximum :
    (framed .pki).seq = .pki ∧ (framed .pki).Idle ∧ (framed .pki).fmt = .binary32 ∧
      ∀ k, 1 ≤ k → k ≤ 511 → ∃ x y, (framed .pki).readRe k = .ok x ∧ (framed .pki).readIm k = .ok y ∧
        (fun _ => 0 : Nat → FloatVal) k = b32Add (b32Mul x x) (b32Mul y y) ∧
        b32IsNaN ((fun _ => 0 : Nat → FloatVal) k) = false :=
  ⟨rfl, ready_idle, rfl, fun _ _ h => ⟨0, 0, (framed_reads _ (by omega)).1, (framed_reads _ (by omega)).2,
    (by decide +kernel : (0 : FloatVal) = b32Add (b32Mul 0 0) (b32Mul 0 0)), (by decide : b32IsNaN 0 = false)⟩⟩

/-- The largest sample, the largest finite pattern, and a NaN. -/
theorem test_witness_ConversionIsExactAndComparisonIsReal :
    65535 ≤ 65535 ∧ FinitePattern 0x7F7FFFFF ∧ FinitePattern 0x80000000 ∧ b32IsNaN 0x7FC00000 = true := by
  unfold FinitePattern
  decide

/-- The largest finite pattern and the smallest subnormal; and zeros of unlike sign. -/
theorem test_witness_SumsRoundOnce :
    FinitePattern 0x7F7FFFFF ∧ FinitePattern 0x00000001 ∧ InRange (b32Value 0x7F7FFFFF + b32Value 0x00000001) 0 ∧
      InRange (b32Value 0x7F7FFFFF - b32Value 0x00000001) 0 ∧ FinitePattern 0 ∧ FinitePattern 0x80000000 ∧
      b32Value 0 + b32Value 0x80000000 = 0 ∧ b32Sign 0 ≠ b32Sign 0x80000000 := by
  unfold FinitePattern InRange
  decide +kernel

theorem test_witness_ProductsRoundOnce :
    FinitePattern 0x7F7FFFFF ∧ FinitePattern 0x3F800000 ∧ InRange (b32Value 0x7F7FFFFF * b32Value 0x3F800000) 149 ∧
      FinitePattern 0x80000000 ∧ b32Value 0x80000000 = 0 := by
  unfold FinitePattern InRange
  decide +kernel

theorem test_witness_QuantizerLatchesItsInput :
    ((inPhase .qst).seq = .qst ∧ (inPhase .qst).Idle) ∧ ¬(ready.seq = .qst ∧ ready.Idle) :=
  ⟨inPhase_idle _, fun h => nomatch h.1⟩

/-- The threshold itself and one above it. -/
theorem test_witness_ReductionHalvesOrLeaves :
    ((inPhase .qrd).seq = .qrd ∧ (inPhase .qrd).Idle) ∧
      (317900 < (317901 : Word).toNat ∧ (inPhase .qrd).qOct.toNat ≤ 14) ∧
      ((317900 : Word).toNat ≤ 317900 ∧ ∃ v, (inPhase .qrd).readNote 0 0 = .ok v) ∧ ¬(ready.seq = .qrd ∧ ready.Idle) :=
  ⟨inPhase_idle _, by decide, ⟨by decide, _, (inPhase_tables .qrd).1 0 0 (by decide) (by decide)⟩,
    fun h => nomatch h.1⟩

theorem test_witness_ComparisonKeepsTheFirstNearest :
    ((inPhase .qcm).seq = .qcm ∧ (inPhase .qcm).Idle ∧ ∃ v, (inPhase .qcm).readNote 0 (inPhase .qcm).qN.toNat = .ok v) ∧
      (∃ v, (inPhase .qcm).readNote 0 (11 : BitVec 4).toNat = .ok v) ∧ ¬(ready.seq = .qcm ∧ ready.Idle) :=
  ⟨⟨rfl, ready_idle, _, (inPhase_tables .qcm).1 0 1 (by decide) (by decide)⟩,
    ⟨_, (inPhase_tables .qcm).1 0 11 (by decide) (by decide)⟩, fun h => nomatch h.1⟩

/-- The largest octave in the table and the first one above it. -/
theorem test_witness_ResultIsClampedToTheTable :
    ((inPhase .qout).seq = .qout ∧ (inPhase .qout).Idle ∧ ∃ l, (inPhase .qout).readLabel 0 = .ok l) ∧
      (9 ≤ (9 : BitVec 6).toNat ∧ ∃ v, (inPhase .qout).readNote 8 0 = .ok v) ∧
      ((8 : BitVec 6).toNat < 9 ∧ ∃ v, (inPhase .qout).readNote (8 : BitVec 6).toNat 0 = .ok v) ∧
      ¬(ready.seq = .qout ∧ ready.Idle) :=
  ⟨⟨rfl, ready_idle, _, (inPhase_tables .qout).2.1 0 (by decide)⟩,
    ⟨by decide, _, (inPhase_tables .qout).1 8 0 (by decide) (by decide)⟩,
    ⟨by decide, _, (inPhase_tables .qout).1 8 0 (by decide) (by decide)⟩, fun h => nomatch h.1⟩

theorem test_witness_QuantizerHasItsClosedForm :
    (inPhase .qst).seq = .qst ∧ (inPhase .qst).Idle ∧ (inPhase .qst).TablesLoaded :=
  ⟨rfl, ready_idle, inPhase_tables _⟩

/-- The first entry of the table and the last. -/
theorem test_witness_QuantizerReturnsTableEntries :
    ((inPhase .qst).seq = .qst ∧ (inPhase .qst).Idle ∧ (inPhase .qst).TablesLoaded) ∧
      (163516 : Word) = (inPhase .qst).cfg.val.noteTable.getD (12 * 0 + 0) 0 ∧
      (79021328 : Word) = (inPhase .qst).cfg.val.noteTable.getD (12 * 8 + 11) 0 :=
  ⟨⟨rfl, ready_idle, inPhase_tables _⟩, by decide +kernel, by decide +kernel⟩

theorem test_witness_ForegroundRunsItsPhaseAlone : Instr.fftBfy.agent = .fg := rfl

/-- A step of every kind of agent for the statements about any operation's next state. -/
theorem test_witness_AnyNextState :
    (∃ t, exec .orchInit State.reset = .next t) ∧ (∃ t, exec .envAtick ready = .next t) ∧
      (∃ t, exec .acqEnter { ready with acqPend := true } = .next t) ∧
      (∃ t, exec .synEnter { ready with synPend := true } = .next t) ∧ ∃ t, exec .envReset ready = .next t :=
  ⟨⟨_, rfl⟩, ⟨_, rfl⟩, ⟨_, rfl⟩, ⟨_, rfl⟩, ⟨_, rfl⟩⟩

theorem test_witness_HandlersCommute :
    (∀ i ∈ [Instr.synEnter, .acqEnter, .synStep], i.agent = .acq ∨ i.agent = .syn) ∧
      after (runOperations [.synEnter, .acqEnter, .synStep] { ready with acqPend := true, synPend := true })
        (fun t => (t.acqAct, t.synPh)) = some (true, .adv) := by decide

theorem test_witness_StepKeepsTheInvariant :
    State.reset.Inv ∧ ∃ t, step { State.reset with trace := [0x00, 0x00, 0x00, 0x30] } = .next t := by
  refine ⟨⟨fun _ => ⟨rfl, rfl, rfl, rfl⟩, fun h => absurd rfl h, ⟨fun h => (nomatch h), fun h => absurd rfl h⟩, rfl,
    fun o ho => ?_, fun h => (nomatch h), Nat.two_pow_pos _, trivial⟩, _, rfl⟩
  obtain rfl : o = { inc := 0, acc := 0 } := by simpa using (show o ∈ [{ inc := 0, acc := 0 }] from ho)
  decide

theorem test_witness_StepKeepsMemoriesCanonical :
    State.reset.Canonical ∧ ∃ t, step { State.reset with trace := [0x05, 0x00, 0x00, 0x03] } = .next t :=
  ⟨⟨rfl, rfl, rfl, rfl, rfl, rfl, rfl⟩, _, rfl⟩

theorem test_witness_EnabledOperationsComplete : ready.Inv ∧ enabled .orchPoll ready = true :=
  ⟨ready_invariant, rfl⟩

theorem test_witness_PortGivesRegistersByNumber :
    ({ ready with valued := { adcDr := true, qIn := true, synAcc := true, dacOut := true } } : State).valued =
        { adcDr := true, qIn := true, synAcc := true, dacOut := true } ∧
      ready.osc[0]? = some { inc := 0, acc := 0 } ∧ 16 + 2 * ready.osc.length ≤ 18 := by decide

end Witnesses

end Sys2Proof.Tests
end

section
/-! SUPPORT. A step whose operation stands in the trace (00_scope.md R9, 30_encoding.md R106, R107). -/

namespace Sys2Proof.Machine

/-- Bytes that begin with an operation's word are taken from the trace; the free choice is not made. -/
theorem nextOperation_of_decode_ok {s : State} {i : Instr} {rest : List Byte}
    (h : decode s.trace = .ok (i, rest)) : nextOperation s = .ok (i, { s with trace := rest }) := by
  unfold nextOperation
  split
  case h_1 hnil =>
    rw [hnil] at h
    nomatch h
  case h_2 => rw [h]

theorem step_of_nextOperation_ok {s t : State} {i : Instr} (h : nextOperation s = .ok (i, t)) :
    step s = exec i t := by
  rw [step, h]

/-- Settles O5: the trace's decoding is the next operation, and a step executes the next operation. -/
theorem stepRunsTheDecodedOperation : Obligations.StepRunsTheDecodedOperation :=
  fun _ _ _ hdecode => step_of_nextOperation_ok (nextOperation_of_decode_ok hdecode)

end Sys2Proof.Machine
end

section
/-! SUPPORT. What an operation that completes can do, path by path: one relation that gives the guard's branch, what
was read and the whole next state, so that a claim about every operation is one case split (00_scope.md R9). -/

namespace Sys2Proof.Machine

/-- Element `k` of the Spectral Frame holds `x + y i` (10_state.md R41). -/
def State.FrameAt (s : State) (k : Nat) (x y : FloatVal) : Prop :=
  s.readRe k = .ok x ∧ s.readIm k = .ok y

/-- `Effect i s t`: one path of operation `i` leads from `s` to `t`. Every operation that completes takes one of these
paths (`exec_effect`). -/
inductive Effect : Instr → State → State → Prop where
  | envReset {s : State} :
    Effect .envReset s { State.resetWith s.cfg with trace := s.trace, draws := s.draws + 1 }
  | envAtickLost {s : State} (hpend : s.acqPend = true) : Effect .envAtick s (s.raise .acqOvr)
  | envAtickPended {s : State} (hpend : s.acqPend = false) : Effect .envAtick s { s with acqPend := true }
  | envEoc {s : State} {v : BitVec 16} :
    Effect (.envEoc v) s { s with adcDr := v, adcEoc := true, valued := { s.valued with adcDr := true } }
  | envStickLost {s : State} (hpend : s.synPend = true) : Effect .envStick s (s.raise .synOvr)
  | envStickPended {s : State} (hpend : s.synPend = false) : Effect .envStick s { s with synPend := true }
  | acqEnter {s : State} : Effect .acqEnter s s.enterAcq
  | acqWaitExpired {s : State} (hexp : waitExpired s.cfg.val.acqWaitMax (nextPollCount s.acqWcnt) = true) :
    Effect .acqWait s
      (({ s with acqWcnt := BitVec.ofNat 32 (nextPollCount s.acqWcnt) } : State).raise .acqTo).leaveAcq
  | acqWaitCounted {s : State} (hexp : waitExpired s.cfg.val.acqWaitMax (nextPollCount s.acqWcnt) = false) :
    Effect .acqWait s { s with acqWcnt := BitVec.ofNat 32 (nextPollCount s.acqWcnt) }
  | acqStore {s : State} :
    Effect .acqStore s
      { (s.writeSamp s.wrIdx.toNat s.adcDr).leaveAcq with adcEoc := false, wrIdx := s.wrIdx + 1 }
  | synEnter {s : State} : Effect .synEnter s s.enterSyn
  | synStep {s : State} :
    Effect .synStep s { s with
      osc := mapChannels (fun c o => retuned (s.cfg.val.channelFrequency c s.tuneFreq) o) 0 s.osc, synPh := .adv }
  | synAdv {s : State} :
    Effect .synAdv s { s with
      osc := mapChannels (fun _ o => { o with acc := BitVec.ofNat 32 (advancedPhase o) }) 0 s.osc, synPh := .mix }
  | synMix {s : State} {sum : Int} (hsum : s.mixChannels s.osc = .ok sum) :
    Effect .synMix s
      { s with synAcc := mixedSum sum, synPh := .out, valued := { s.valued with synAcc := true } }
  | synOut {s : State} {code : BitVec 12}
      (hcode : code = BitVec.ofInt 12 (outputCode s.synAcc.toInt s.cfg.val.volume s.cfg.val.outShift)) :
    Effect .synOut s { s.leaveSyn with
      dacOut := code, dacStream := code :: s.dacStream, valued := { s.valued with dacOut := true } }
  | orchInit {s : State} : Effect .orchInit s (s.loadTables.goto .fill)
  | orchPollRacy {s : State} (hidx : s.wrIdx.toNat = 1023) (hpol : s.cfg.val.loadPolicy = .racy) :
    Effect .orchPoll s { s with fi := 0, seq := .load }
  | orchPollSnapshot {s : State} (hidx : s.wrIdx.toNat = 1023) (hpol : s.cfg.val.loadPolicy = .snapshot) :
    Effect .orchPoll s { s.takeSnapshot with fi := 0, seq := .load }
  | orchPollIdle {s : State} (hidx : s.wrIdx.toNat ≠ 1023) : Effect .orchPoll s s
  | orchPub {s : State} :
    Effect .orchPub s { s with tuneLabel := s.qLabel, tuneFreq := s.qFreq, seq := .fill }
  | fftLoadLast {s : State} {v : BitVec 16} (hread : s.readSource s.fi.toNat = .ok v) (hfi : s.fi.toNat = 1023) :
    Effect .fftLoad s
      { s.writeFrame s.fi.toNat (s.fmt.ofNat v.toNat) s.fmt.zero with fi := 0, fj := 0, seq := .rev }
  | fftLoadNext {s : State} {v : BitVec 16} (hread : s.readSource s.fi.toNat = .ok v) (hfi : s.fi.toNat ≠ 1023) :
    Effect .fftLoad s { s.writeFrame s.fi.toNat (s.fmt.ofNat v.toNat) s.fmt.zero with fi := s.fi + 1 }
  | fftRevSwapLast {s : State} {j : Nat} {xr xi yr yi : FloatVal} (hlt : s.fi.toNat < s.fj.toNat)
      (hx : s.FrameAt s.fi.toNat xr xi) (hy : s.FrameAt s.fj.toNat yr yi) (hwalk : walkNext s.fj.toNat = some j)
      (hfi : s.fi.toNat = 1022) :
    Effect .fftRev s { (s.writeFrame s.fi.toNat yr yi).writeFrame s.fj.toNat xr xi with
      fj := BitVec.ofNat 10 j, fstg := 1, seq := .stg }
  | fftRevSwapNext {s : State} {j : Nat} {xr xi yr yi : FloatVal} (hlt : s.fi.toNat < s.fj.toNat)
      (hx : s.FrameAt s.fi.toNat xr xi) (hy : s.FrameAt s.fj.toNat yr yi) (hwalk : walkNext s.fj.toNat = some j)
      (hfi : s.fi.toNat ≠ 1022) :
    Effect .fftRev s { (s.writeFrame s.fi.toNat yr yi).writeFrame s.fj.toNat xr xi with
      fj := BitVec.ofNat 10 j, fi := s.fi + 1 }
  | fftRevKeepLast {s : State} {j : Nat} (hle : ¬s.fi.toNat < s.fj.toNat) (hwalk : walkNext s.fj.toNat = some j)
      (hfi : s.fi.toNat = 1022) :
    Effect .fftRev s { s with fj := BitVec.ofNat 10 j, fstg := 1, seq := .stg }
  | fftRevKeepNext {s : State} {j : Nat} (hle : ¬s.fi.toNat < s.fj.toNat) (hwalk : walkNext s.fj.toNat = some j)
      (hfi : s.fi.toNat ≠ 1022) :
    Effect .fftRev s { s with fj := BitVec.ofNat 10 j, fi := s.fi + 1 }
  | fftStg {s : State} {c d : FloatVal} (htw : s.cfg.val.twiddle s.fstg.toNat = some (c, d)) :
    Effect .fftStg s { s with
      fhalf := BitVec.ofNat 10 (halfGroup s.fstg.toNat), cRe := c, cIm := d, wRe := s.fmt.one, wIm := s.fmt.zero,
      fj := 0, fgrp := 0, seq := .bfy }
  | fftBfy {s : State} {xr xi yr yi tr ti : FloatVal} (hy : s.FrameAt s.bfyUpper yr yi)
      (hx : s.FrameAt s.bfyLower xr xi) (htr : tr = cmulRe s.fmt s.wRe s.wIm xr xi)
      (hti : ti = cmulIm s.fmt s.wRe s.wIm xr xi) :
    Effect .fftBfy s { (s.writeFrame s.bfyLower (s.fmt.sub yr tr) (s.fmt.sub yi ti)).writeFrame s.bfyUpper
        (s.fmt.add yr tr) (s.fmt.add yi ti) with
      fgrp := BitVec.ofNat 11 s.bfyNextGroup, seq := if 1024 ≤ s.bfyNextGroup then .twn else .bfy }
  | fftTwnPosition {s : State} (hfj : s.fj.toNat + 1 < s.fhalf.toNat) :
    Effect .fftTwn s { s with
      wRe := cmulRe s.fmt s.wRe s.wIm s.cRe s.cIm, wIm := cmulIm s.fmt s.wRe s.wIm s.cRe s.cIm,
      fj := s.fj + 1, fgrp := 0, seq := .bfy }
  | fftTwnStage {s : State} (hfj : ¬s.fj.toNat + 1 < s.fhalf.toNat) (hstg : s.fstg.toNat < 10) :
    Effect .fftTwn s { s with
      wRe := cmulRe s.fmt s.wRe s.wIm s.cRe s.cIm, wIm := cmulIm s.fmt s.wRe s.wIm s.cRe s.cIm,
      fstg := s.fstg + 1, seq := .stg }
  | fftTwnLast {s : State} (hfj : ¬s.fj.toNat + 1 < s.fhalf.toNat) (hstg : ¬s.fstg.toNat < 10) :
    Effect .fftTwn s { s with
      wRe := cmulRe s.fmt s.wRe s.wIm s.cRe s.cIm, wIm := cmulIm s.fmt s.wRe s.wIm s.cRe s.cIm, seq := .pki }
  | pkInit {s : State} {x y : FloatVal} (hx : s.FrameAt 1 x y) :
    Effect .pkInit s { s with pkBin := 1, pkMag := mag2 s.fmt x y, pkK := 2, seq := .pks }
  | pkScanGreater {s : State} {x y : FloatVal} (hx : s.FrameAt s.pkK.toNat x y)
      (hgt : s.fmt.gt (mag2 s.fmt x y) s.pkMag = true) :
    Effect .pkScan s { s with
      pkMag := mag2 s.fmt x y, pkBin := s.pkK.setWidth 9, pkK := s.pkK + 1,
      seq := if s.pkK.toNat = 511 then .pkd else .pks }
  | pkScanNotGreater {s : State} {x y : FloatVal} (hx : s.FrameAt s.pkK.toNat x y)
      (hgt : s.fmt.gt (mag2 s.fmt x y) s.pkMag = false) :
    Effect .pkScan s { s with pkK := s.pkK + 1, seq := if s.pkK.toNat = 511 then .pkd else .pks }
  | pkDone {s : State} :
    Effect .pkDone s { s with
      domBin := s.pkBin, domFreqE4 := BitVec.ofNat 32 (binFrequency s.pkBin.toNat), seq := .qst }
  | qntStart {s : State} :
    Effect .qntStart s { s with
      qIn := s.domFreqE4, qF := s.domFreqE4, qOct := 0, seq := .qrd, valued := { s.valued with qIn := true } }
  | qntRedHalve {s : State} (hq : octaveThreshold < s.qF.toNat) :
    Effect .qntRed s { s with qF := s.qF >>> 1, qOct := s.qOct + 1 }
  | qntRedLeave {s : State} {v : Word} (hq : ¬octaveThreshold < s.qF.toNat) (hread : s.readNote 0 0 = .ok v) :
    Effect .qntRed s { s with
      qBest := 0, qBdiff := BitVec.ofNat 32 (absDiff s.qF.toNat v.toNat), qN := 1, seq := .qcm }
  | qntCmpNearer {s : State} {v : Word} (hread : s.readNote 0 s.qN.toNat = .ok v)
      (hd : absDiff s.qF.toNat v.toNat < s.qBdiff.toNat) :
    Effect .qntCmp s { s with
      qBdiff := BitVec.ofNat 32 (absDiff s.qF.toNat v.toNat), qBest := s.qN, qN := s.qN + 1,
      seq := if s.qN.toNat = 11 then .qout else .qcm }
  | qntCmpNotNearer {s : State} {v : Word} (hread : s.readNote 0 s.qN.toNat = .ok v)
      (hd : ¬absDiff s.qF.toNat v.toNat < s.qBdiff.toNat) :
    Effect .qntCmp s { s with qN := s.qN + 1, seq := if s.qN.toNat = 11 then .qout else .qcm }
  | qntOutClamped {s : State} {l : BitVec 16} {v : Word} (hlabel : s.readLabel s.qBest.toNat = .ok l)
      (hnote : s.readNote s.resultOctave s.qBest.toNat = .ok v) (hoct : octaveCount ≤ s.qOct.toNat) :
    Effect .qntOut s { s.raise .qRange with qLabel := l, qFreq := v, seq := .pub }
  | qntOutInTable {s : State} {l : BitVec 16} {v : Word} (hlabel : s.readLabel s.qBest.toNat = .ok l)
      (hnote : s.readNote s.resultOctave s.qBest.toNat = .ok v) (hoct : ¬octaveCount ≤ s.qOct.toNat) :
    Effect .qntOut s { s with qLabel := l, qFreq := v, seq := .pub }

variable {s t : State} {i : Instr}

theorem effect_of_execEnvAtick (h : execEnvAtick s = .next t) : Effect .envAtick s t := by
  obtain ⟨-, h⟩ := guarded_next h
  cases hpend : s.acqPend <;> (simp only [hpend] at h; cases h)
  · exact .envAtickPended hpend
  · exact .envAtickLost hpend

theorem effect_of_execEnvStick (h : execEnvStick s = .next t) : Effect .envStick s t := by
  obtain ⟨-, h⟩ := guarded_next h
  cases hpend : s.synPend <;> (simp only [hpend] at h; cases h)
  · exact .envStickPended hpend
  · exact .envStickLost hpend

theorem effect_of_execAcqWait (h : execAcqWait s = .next t) : Effect .acqWait s t := by
  obtain ⟨-, h⟩ := guarded_next h
  cases h
  split
  · exact .acqWaitExpired ‹_›
  · exact .acqWaitCounted (Bool.eq_false_iff.2 ‹_›)

theorem effect_of_execSynMix (h : execSynMix s = .next t) : Effect .synMix s t := by
  obtain ⟨-, h⟩ := guarded_next h
  obtain ⟨sum, hsum, h⟩ := andThen_next h
  cases h
  exact .synMix hsum

theorem effect_of_execOrchPoll (h : execOrchPoll s = .next t) : Effect .orchPoll s t := by
  obtain ⟨-, h⟩ := guarded_next h
  cases h
  split
  · unfold State.trigger
    split
    · exact .orchPollRacy ‹_› ‹_›
    · exact .orchPollSnapshot ‹_› ‹_›
  · exact .orchPollIdle ‹_›

theorem effect_of_execFftLoad (h : execFftLoad s = .next t) : Effect .fftLoad s t := by
  obtain ⟨-, h⟩ := guarded_next h
  obtain ⟨v, hread, h⟩ := andThen_next h
  cases h
  split
  · exact .fftLoadLast hread ‹_›
  · exact .fftLoadNext hread ‹_›

/-- The walk answers a next state only where it has a next index. -/
theorem walkStep_next (h : s.walkStep = .next t) : ∃ j, walkNext s.fj.toNat = some j ∧
    (s.fi.toNat = 1022 ∧ t = { s with fj := BitVec.ofNat 10 j, fstg := 1, seq := .stg } ∨
      s.fi.toNat ≠ 1022 ∧ t = { s with fj := BitVec.ofNat 10 j, fi := s.fi + 1 }) := by
  cases hwalk : walkNext s.fj.toNat with
  | none =>
    rw [State.walkStep, hwalk] at h
    cases h
  | some j =>
    rw [walkStep_some hwalk] at h
    cases h
    refine ⟨j, rfl, ?_⟩
    split
    · exact .inl ⟨‹_›, rfl⟩
    · exact .inr ⟨‹_›, rfl⟩

theorem effect_of_execFftRev (h : execFftRev s = .next t) : Effect .fftRev s t := by
  obtain ⟨-, h⟩ := guarded_next h
  split at h
  next hlt =>
    obtain ⟨xr, xi, hxr, hxi, h⟩ := withFrame_next h
    obtain ⟨yr, yi, hyr, hyi, h⟩ := withFrame_next h
    obtain ⟨j, hwalk, ⟨hfi, rfl⟩ | ⟨hfi, rfl⟩⟩ := walkStep_next h
    · exact .fftRevSwapLast hlt ⟨hxr, hxi⟩ ⟨hyr, hyi⟩ hwalk hfi
    · exact .fftRevSwapNext hlt ⟨hxr, hxi⟩ ⟨hyr, hyi⟩ hwalk hfi
  next hle =>
    obtain ⟨j, hwalk, ⟨hfi, rfl⟩ | ⟨hfi, rfl⟩⟩ := walkStep_next h
    · exact .fftRevKeepLast hle hwalk hfi
    · exact .fftRevKeepNext hle hwalk hfi

theorem effect_of_execFftStg (h : execFftStg s = .next t) : Effect .fftStg s t := by
  obtain ⟨-, h⟩ := guarded_next h
  split at h
  next => cases h
  next htw =>
    cases h
    exact .fftStg htw

theorem effect_of_execFftBfy (h : execFftBfy s = .next t) : Effect .fftBfy s t := by
  obtain ⟨-, h⟩ := guarded_next h
  obtain ⟨yr, yi, hyr, hyi, h⟩ := withFrame_next h
  obtain ⟨xr, xi, hxr, hxi, h⟩ := withFrame_next h
  cases h
  exact .fftBfy ⟨hyr, hyi⟩ ⟨hxr, hxi⟩ rfl rfl

theorem effect_of_execFftTwn (h : execFftTwn s = .next t) : Effect .fftTwn s t := by
  obtain ⟨-, h⟩ := guarded_next h
  cases h
  split
  · exact .fftTwnPosition ‹_›
  · split
    · exact .fftTwnStage ‹_› ‹_›
    · exact .fftTwnLast ‹_› ‹_›

theorem effect_of_execPkInit (h : execPkInit s = .next t) : Effect .pkInit s t := by
  obtain ⟨-, h⟩ := guarded_next h
  obtain ⟨x, y, hx, hy, h⟩ := withFrame_next h
  cases h
  exact .pkInit ⟨hx, hy⟩

theorem effect_of_execPkScan (h : execPkScan s = .next t) : Effect .pkScan s t := by
  obtain ⟨-, h⟩ := guarded_next h
  obtain ⟨x, y, hx, hy, h⟩ := withFrame_next h
  cases hgt : s.fmt.gt (mag2 s.fmt x y) s.pkMag <;> (simp only [hgt] at h; cases h)
  · exact .pkScanNotGreater ⟨hx, hy⟩ hgt
  · exact .pkScanGreater ⟨hx, hy⟩ hgt

theorem effect_of_execQntRed (h : execQntRed s = .next t) : Effect .qntRed s t := by
  obtain ⟨-, h⟩ := guarded_next h
  split at h
  next hq =>
    cases h
    exact .qntRedHalve hq
  next hq =>
    obtain ⟨v, hread, h⟩ := andThen_next h
    cases h
    exact .qntRedLeave hq hread

theorem effect_of_execQntCmp (h : execQntCmp s = .next t) : Effect .qntCmp s t := by
  obtain ⟨-, h⟩ := guarded_next h
  obtain ⟨v, hread, h⟩ := andThen_next h
  by_cases hd : absDiff s.qF.toNat v.toNat < s.qBdiff.toNat <;> (simp only [hd] at h; cases h)
  · exact .qntCmpNearer hread hd
  · exact .qntCmpNotNearer hread hd

theorem effect_of_execQntOut (h : execQntOut s = .next t) : Effect .qntOut s t := by
  obtain ⟨-, h⟩ := guarded_next h
  obtain ⟨l, hlabel, h⟩ := andThen_next h
  obtain ⟨v, hnote, h⟩ := andThen_next h
  by_cases hoct : octaveCount ≤ s.qOct.toNat <;> (simp only [hoct] at h; cases h)
  · exact .qntOutClamped hlabel hnote hoct
  · exact .qntOutInTable hlabel hnote hoct

/-- An operation without a branch or a read has its one effect. -/
theorem eq_of_guarded_next {u : State} (h : guarded i s (.next u) = .next t) : t = u := by
  cases (guarded_next h).2
  rfl

/-- An operation that completes takes one of its paths. -/
theorem exec_effect (h : exec i s = .next t) : Effect i s t := by
  cases i with
  | envReset => exact eq_of_guarded_next (show execEnvReset s = _ from h) ▸ .envReset
  | envAtick => exact effect_of_execEnvAtick h
  | envEoc v => exact eq_of_guarded_next h ▸ .envEoc
  | envStick => exact effect_of_execEnvStick h
  | acqEnter => exact eq_of_guarded_next h ▸ .acqEnter
  | acqWait => exact effect_of_execAcqWait h
  | acqStore => exact eq_of_guarded_next h ▸ .acqStore
  | synEnter => exact eq_of_guarded_next h ▸ .synEnter
  | synStep => exact eq_of_guarded_next h ▸ .synStep
  | synAdv => exact eq_of_guarded_next h ▸ .synAdv
  | synMix => exact effect_of_execSynMix h
  | synOut => exact eq_of_guarded_next h ▸ .synOut rfl
  | orchInit => exact eq_of_guarded_next h ▸ .orchInit
  | orchPoll => exact effect_of_execOrchPoll h
  | orchPub => exact eq_of_guarded_next h ▸ .orchPub
  | fftLoad => exact effect_of_execFftLoad h
  | fftRev => exact effect_of_execFftRev h
  | fftStg => exact effect_of_execFftStg h
  | fftBfy => exact effect_of_execFftBfy h
  | fftTwn => exact effect_of_execFftTwn h
  | pkInit => exact effect_of_execPkInit h
  | pkScan => exact effect_of_execPkScan h
  | pkDone => exact eq_of_guarded_next h ▸ .pkDone
  | qntStart => exact eq_of_guarded_next h ▸ .qntStart
  | qntRed => exact effect_of_execQntRed h
  | qntCmp => exact effect_of_execQntCmp h
  | qntOut => exact effect_of_execQntOut h

end Sys2Proof.Machine
end

section
/-! SUPPORT. When a foreground operation is enabled, and what the operations of one agent leave alone: the laws of
10_state.md R20, R22 and R37 over every operation. -/

namespace Sys2Proof.Machine

variable {s t : State} {i : Instr}

section Foreground

/-- No two phases enable the same operation (10_state.md R22). -/
theorem Phase.op_inj {p q : Phase} : p.op = q.op ↔ p = q := by
  cases p <;> cases q <;> simp [Phase.op]

/-- A foreground operation is enabled exactly where it is its phase's and no handler is pending or active
(10_state.md R22, 60_exceptions.md R247). -/
theorem enabled_foreground_iff (hfg : i.agent = .fg) : enabled i s = true ↔ i = s.seq.op ∧ s.Idle := by
  have hphase (p : Phase) : s.foregroundEnabled p = true ↔ p.op = s.seq.op ∧ s.Idle := by
    rw [foregroundEnabled_iff, Phase.op_inj, eq_comm]
  cases i with
  | orchInit | orchPoll | orchPub | fftLoad | fftRev | fftStg | fftBfy | fftTwn | pkInit | pkScan | pkDone
  | qntStart | qntRed | qntCmp | qntOut => exact hphase _
  | _ => cases hfg

/-- Settles O49: R22's table pairs each phase's code with the phase's one operation. -/
theorem foregroundRunsItsPhaseAlone : Obligations.ForegroundRunsItsPhaseAlone := by
  intro s i hfg
  rw [enabled_foreground_iff hfg, and_comm]
  simp only [State.Idle, and_assoc]
  cases s.seq <;> simp [Phase.code, Phase.op]

end Foreground

section Frames

/-- No operation writes the configuration (10_state.md R49). -/
theorem Effect.cfg_eq (h : Effect i s t) : t.cfg = s.cfg := by
  cases h <;> rfl

/-- An operation of the environment or of a handler leaves the foreground's registers and memories and the look-up
memories alone (10_state.md R20, 20_memory.md R82). -/
theorem Effect.sameForeground (h : Effect i s t) (hfg : i.agent ≠ .fg) (hr : i ≠ .envReset) :
    s.SameForeground t := by
  cases h with
  | envReset => exact absurd rfl hr
  | envAtickLost | envAtickPended | envEoc | envStickLost | envStickPended | acqEnter | acqWaitExpired
  | acqWaitCounted | acqStore | synEnter | synStep | synAdv | synMix | synOut => simp [State.SameForeground]
  | _ => exact absurd rfl hfg

/-- Only `ORCH.INIT` writes the look-up memories (20_memory.md R85). -/
theorem Effect.tables_eq (h : Effect i s t) (hinit : i ≠ .orchInit) (hr : i ≠ .envReset) :
    t.note = s.note ∧ t.label = s.label ∧ t.wave = s.wave := by
  cases h with
  | envReset => exact absurd rfl hr
  | orchInit => exact absurd rfl hinit
  | _ => exact ⟨rfl, rfl, rfl⟩

end Frames

section Sequencer

/-- A foreground operation moves `SEQ` along an edge of R22's graph (44_orchestrator.md R224). -/
theorem Effect.seq_edge (h : Effect i s t) (hfg : i.agent = .fg) (hen : enabled i s = true) :
    (s.seq.code.toNat, t.seq.code.toNat) ∈ [(0, 1), (1, 1), (1, 2), (2, 2), (2, 3), (3, 3), (3, 4), (4, 5), (5, 5),
      (5, 6), (6, 5), (6, 4), (6, 7), (7, 8), (8, 8), (8, 9), (9, 10), (10, 11), (11, 11), (11, 12), (12, 12),
      (12, 13), (13, 14), (14, 1)] := by
  cases h with
  | orchInit | orchPollRacy | orchPollSnapshot | orchPollIdle | orchPub | fftLoadLast | fftLoadNext | fftRevSwapLast
  | fftRevSwapNext | fftRevKeepLast | fftRevKeepNext | fftStg | fftTwnPosition | fftTwnStage | fftTwnLast | pkInit
  | pkDone | qntStart | qntRedHalve | qntRedLeave | qntOutClamped | qntOutInTable =>
    have hseq := (foregroundEnabled_iff.1 hen).1
    simp [hseq, Phase.code]
  | fftBfy | pkScanGreater | pkScanNotGreater | qntCmpNearer | qntCmpNotNearer =>
    have hseq := (foregroundEnabled_iff.1 hen).1
    dsimp only
    split <;> simp [hseq, Phase.code]
  | _ => cases hfg

/-- Settles O50: a foreground operation moves along an edge, and no other writes the foreground's registers. -/
theorem sequencerFollowsItsGraph : Obligations.SequencerFollowsItsGraph := by
  intro i s t h
  have heff := exec_effect h
  by_cases hr : i = .envReset
  · exact .inl hr
  by_cases hfg : i.agent = .fg
  · exact .inr (.inr ⟨hfg, heff.seq_edge hfg (exec_next_enabled h)⟩)
  · exact .inr (.inl ⟨hfg, (heff.sameForeground hfg hr).1⟩)

end Sequencer

section Status

/-- Raising a fault sets the bit of its number and no other (60_exceptions.md R240). -/
theorem raisedStatus_getLsbD (st : BitVec 4) (x : FaultCode) (b : Nat) :
    (raisedStatus st x).getLsbD b = true ↔ st.getLsbD b = true ∨ b = x.number := by
  have hx : x.number < 4 := by cases x <;> decide
  rw [raisedStatus, BitVec.getLsbD_or, ← BitVec.twoPow_eq, BitVec.getLsbD_twoPow]
  simp [hx, eq_comm (a := b)]

theorem waitExpired_eq_any (bound : Option Nat) (n : Nat) :
    waitExpired bound n = bound.any fun m => decide (m ≤ n) := by
  cases bound <;> rfl

/-- The poll count fits its register (00_scope.md R17). -/
theorem toNat_nextPollCount (n : Word) : (BitVec.ofNat 32 (nextPollCount n)).toNat = nextPollCount n := by
  rw [BitVec.toNat_ofNat, Nat.mod_eq_of_lt]
  unfold nextPollCount
  omega

/-- Settles O51: a path either leaves STATUS alone, and its cause did not hold, or raises its one bit. -/
theorem statusBitsAreSticky : Obligations.StatusBitsAreSticky := by
  intro i s t h hr b
  rw [Bool.eq_iff_iff]
  cases exec_effect h with
  | envReset => exact absurd rfl hr
  | envAtickLost hpend | envStickLost hpend => simp [raisedStatus_getLsbD, FaultCode.number, hpend]
  | envAtickPended hpend | envStickPended hpend => simp [hpend]
  | acqWaitExpired hexp =>
    rw [waitExpired_eq_any] at hexp
    simp [raisedStatus_getLsbD, FaultCode.number, toNat_nextPollCount, hexp, -BitVec.toNat_ofNat]
  | acqWaitCounted hexp =>
    rw [waitExpired_eq_any] at hexp
    simp [toNat_nextPollCount, hexp, -BitVec.toNat_ofNat]
  | qntOutClamped _ _ hoct =>
    have hoct : 9 ≤ s.qOct.toNat := hoct
    simp [raisedStatus_getLsbD, FaultCode.number, hoct]
  | qntOutInTable _ _ hoct =>
    have hoct : ¬9 ≤ s.qOct.toNat := hoct
    simp [hoct]
  | _ => simp

end Status

section Owners

/-- A channel map that keeps every step leaves the list of steps as it was. -/
theorem mapChannels_map_inc {f : Nat → Oscillator → Oscillator} (hf : ∀ c o, (f c o).inc = o.inc) (c : Nat)
    (l : List Oscillator) : (mapChannels f c l).map Oscillator.inc = l.map Oscillator.inc := by
  induction l generalizing c with
  | nil => rfl
  | cons o l ih => simp [mapChannels, hf, ih]

/-- Settles O52: along each path, a register the path's operation does not own keeps its value; `SYN.ADV` writes the
phases and keeps the steps. -/
theorem registersAreWrittenByTheirOwners : Obligations.RegistersAreWrittenByTheirOwners := by
  intro i s t h hr
  cases exec_effect h with
  | envReset => exact absurd rfl hr
  | synAdv => simp [Instr.agent, mapChannels_map_inc]
  | _ => simp [Instr.agent]

end Owners

end Sys2Proof.Machine
end

section
/-! SUPPORT. The reset state and the observation port (10_state.md R38, R50, R51). -/

namespace Sys2Proof.Machine

section Reset

/-- An element of an empty memory without reset contents holds no value (10_state.md R51). -/
theorem readElement_empty_ne_ok {α : Type} (mem : MemId) (size k : Nat) (v : α) :
    readElement mem size noInitial [] k ≠ .ok v := by
  simp [readElement_ok, Memory.read, Memory.lookup, noInitial]

/-- A slot of the ring buffer holds its `RING_RESET` after a reset (10_state.md R50). -/
theorem readElement_empty_ringReset (c : Config) {k : Nat} (hk : k < 1024) :
    readElement .samp ringSize c.ringResetAt [] k = .ok ((Memory.lookup c.ringReset k).getD 0) := by
  refine readElement_ok.2 ⟨hk, ?_⟩
  simp only [Memory.read, Memory.lookup, Config.ringResetAt]
  cases Memory.lookup c.ringReset k <;> rfl

theorem mem_osc_resetWith {c : ValidConfig} {o : Oscillator} (ho : o ∈ (State.resetWith c).osc) :
    o.inc = 0 ∧ o.acc = 0 := by
  cases List.eq_of_mem_replicate ho
  exact ⟨rfl, rfl⟩

/-- The reset state of any configuration meets the invariant. -/
theorem inv_resetWith (c : ValidConfig) : (State.resetWith c).Inv where
  bootIdle _ := ⟨rfl, rfl, rfl, rfl⟩
  tables h := absurd rfl h
  synPhase := by simp [State.resetWith]
  channels := List.length_replicate
  phases o ho := by simp [(mem_osc_resetWith ho).2]
  mixBound h := nomatch h
  adcWidth := Nat.two_pow_pos _
  phase := trivial

/-- Settles O56: the reset state of the default configuration, whose memories list no cell. -/
theorem resetMeetsTheInvariant : Obligations.ResetMeetsTheInvariant :=
  ⟨inv_resetWith _, rfl, rfl, rfl, rfl, rfl, rfl, rfl⟩

/-- Settles O8: `ENV.RESET` leaves the reset state of its configuration, where every memory is empty. -/
theorem resetLeavesTheResetState : Obligations.ResetLeavesTheResetState := by
  refine ⟨rfl, fun s => ⟨_, rfl, rfl, rfl, rfl, rfl, rfl, rfl, rfl, rfl, rfl, rfl, rfl, rfl, rfl, rfl, rfl, rfl,
    List.length_replicate, fun o ho => mem_osc_resetWith ho, fun i hi => readElement_empty_ringReset _ hi,
    fun i => readElement_empty_ne_ok _ _ i, fun i => readElement_empty_ne_ok _ _ i,
    fun i => readElement_empty_ne_ok _ _ i, fun o n v => ?_, fun n => readElement_empty_ne_ok _ _ n,
    fun i => readElement_empty_ne_ok _ _ i, ?_⟩⟩
  · unfold State.readNote
    split
    · exact readElement_empty_ne_ok _ _ _ v
    · nofun
  · rintro r (rfl | rfl | rfl | rfl) <;> rfl

end Reset

section Port

variable (s : State)

/-- The bits of `IRQ` (10_state.md R38). -/
theorem irq_getLsbD (b : Nat) : s.irq.getLsbD b =
    ((decide (b = 0) && s.acqPend) || (decide (b = 1) && s.acqAct) || (decide (b = 2) && s.synPend) ||
      (decide (b = 3) && s.synAct) || (decide (b = 4) && s.adcEoc) ||
      (decide (5 ≤ b) && s.synPh.code.getLsbD (b - 5))) := by
  rw [State.irq]
  simp only [BitVec.append_ofBool, BitVec.getLsbD_concat]
  rcases b with _ | _ | _ | _ | _ | b <;> simp

/-- The port extends `IRQ` to 32 bits by zeros. -/
theorem portWord_irq_getLsbD (b : Nat) : (s.portWord 1).getLsbD b = s.irq.getLsbD b := by
  rw [show s.portWord 1 = s.irq.setWidth 32 from rfl, BitVec.getLsbD_setWidth, Bool.and_eq_right_iff_imp]
  intro h
  exact decide_eq_true ((BitVec.lt_of_getLsbD h).trans (by decide))

/-- A port word is its four bytes, least significant first (20_memory.md R74). -/
theorem toNat_portWord (r : Nat) : (s.portWord r).toNat = (s.portByte (4 * r)).toNat +
    2 ^ 8 * (s.portByte (4 * r + 1)).toNat + 2 ^ 16 * (s.portByte (4 * r + 2)).toNat +
    2 ^ 24 * (s.portByte (4 * r + 3)).toNat := by
  have hlt := (s.portWord r).isLt
  have hbyte (k : Nat) (hk : k < 4) :
      (s.portByte (4 * r + k)).toNat = (s.portWord r).toNat / 2 ^ (8 * k) % 2 ^ 8 := by
    rw [State.portByte, BitVec.toNat_ofNat, show (4 * r + k) / 4 = r by omega, show (4 * r + k) % 4 = k by omega]
  have h0 := hbyte 0 (by decide)
  rw [Nat.add_zero] at h0
  rw [h0, hbyte 1 (by decide), hbyte 2 (by decide), hbyte 3 (by decide)]
  omega

/-- From number 16 on the port gives the oscillators' registers (10_state.md R38). -/
theorem portWord_oscillator (k : Nat) : s.portWord (k + 16) = s.portOscillator k := rfl

/-- Settles O60: a number below 16 names its register or none, and from 16 on its half is the channel and its parity
the register. -/
theorem portGivesRegistersByNumber : Obligations.PortGivesRegistersByNumber := by
  intro s
  refine ⟨rfl, fun b => (portWord_irq_getLsbD s b).trans (irq_getLsbD s b), rfl, rfl, fun h => if_pos h, rfl, rfl, rfl,
    rfl, rfl, fun h => if_pos h, fun h => if_pos h, fun h => if_pos h, fun r hlo hhi => ?_, fun c o ho => ?_,
    fun r hr => ?_, toNat_portWord s⟩
  · interval_cases r <;> rfl
  · rw [Nat.add_comm 16, show 17 + 2 * c = 2 * c + 1 + 16 by omega, portWord_oscillator, portWord_oscillator,
      State.portOscillator, State.portOscillator, show 2 * c / 2 = c by omega, show (2 * c + 1) / 2 = c by omega, ho]
    simp [show (2 * c + 1) % 2 = 1 by omega]
  · obtain ⟨k, rfl⟩ : ∃ k, r = k + 16 := ⟨r - 16, by omega⟩
    rw [portWord_oscillator, State.portOscillator, List.getElem?_eq_none (by omega)]

end Port

end Sys2Proof.Machine
end

section
/-! SUPPORT. Every step keeps the invariant: the synthesis handler's part, the foreground's part phase by phase, and
the parts both agents share (10_state.md R22 to R35, 43_synthesis.md R208, 20_memory.md R73). -/

namespace Sys2Proof.Machine

variable {s t : State} {i : Instr}

section Synthesis

/-- The invariant's conditions on the synthesis handler. -/
structure State.SynInv (s : State) : Prop where
  synPhase : s.synAct = true ↔ s.synPh ≠ .idle
  channels : s.osc.length = s.cfg.val.nch
  phases : ∀ o ∈ s.osc, o.acc.toNat < 65536000
  mixBound : s.synPh = .out → s.cfg.val.nch * 32767 < 2 ^ 31 → s.synAcc.toInt.natAbs ≤ s.cfg.val.nch * 32767

theorem State.Inv.synInv (h : s.Inv) : s.SynInv := ⟨h.synPhase, h.channels, h.phases, h.mixBound⟩

/-- Only the synthesis handler's own operations, and a reset, write what its conditions read (10_state.md R20). -/
theorem Effect.synInv_of_agent_ne_syn (he : Effect i s t) (h : s.SynInv) (hsyn : i.agent ≠ .syn)
    (hr : i ≠ .envReset) : t.SynInv := by
  cases he with
  | envReset => exact absurd rfl hr
  | synEnter | synStep | synAdv | synMix | synOut => exact absurd rfl hsyn
  | _ => exact ⟨h.synPhase, h.channels, h.phases, h.mixBound⟩

/-- A phase is kept or cleared by a new step (43_synthesis.md R204). -/
theorem retuned_acc_lt {o : Oscillator} (ho : o.acc.toNat < 65536000) (fc : Word) :
    (retuned fc o).acc.toNat < 65536000 := by
  unfold retuned
  split
  · decide
  · exact ho

/-- An advanced phase is below its modulus (43_synthesis.md R205). -/
theorem toNat_advancedPhase_lt (o : Oscillator) : (BitVec.ofNat 32 (advancedPhase o)).toNat < 65536000 :=
  lt_of_le_of_lt (Nat.mod_le _ _) (Nat.mod_lt _ (by decide))

/-- The sum `SYN.MIX` leaves is bounded where the bound fits the register (43_synthesis.md R206 (b)). -/
theorem mixedSum_bound (htab : s.TablesLoaded) {l : List Oscillator} {sum : Int} (hsum : s.mixChannels l = .ok sum)
    (hfit : l.length * 32767 < 2 ^ 31) : (mixedSum sum).toInt.natAbs ≤ l.length * 32767 := by
  have hbound := mixChannels_bound htab hsum
  rwa [mixedSum_toInt (by omega)]

/-- An operation of the synthesis handler keeps the handler's conditions. -/
theorem Effect.synInv_of_agent_syn (he : Effect i s t) (h : s.SynInv) (hsyn : i.agent = .syn)
    (htab : s.TablesLoaded) (hen : enabled i s = true) : t.SynInv := by
  cases he with
  | synEnter => exact ⟨by simp, h.channels, h.phases, nofun⟩
  | synStep =>
    have hact : s.synAct = true := (Bool.and_eq_true_iff.1 hen).1
    refine ⟨by simp [hact], (mapChannels_length _ _).trans h.channels, fun o ho => ?_, nofun⟩
    obtain ⟨c, p, hp, rfl⟩ := mem_mapChannels ho
    exact retuned_acc_lt (h.phases p hp) _
  | synAdv =>
    have hact : s.synAct = true := (Bool.and_eq_true_iff.1 hen).1
    refine ⟨by simp [hact], (mapChannels_length _ _).trans h.channels, fun o ho => ?_, nofun⟩
    obtain ⟨c, p, hp, rfl⟩ := mem_mapChannels ho
    exact toNat_advancedPhase_lt p
  | synMix hsum =>
    have hact : s.synAct = true := (Bool.and_eq_true_iff.1 hen).1
    refine ⟨by simp [hact], h.channels, h.phases, fun _ hfit => ?_⟩
    rw [← h.channels] at hfit ⊢
    exact mixedSum_bound htab hsum hfit
  | synOut => exact ⟨by simp, h.channels, h.phases, nofun⟩
  | _ => cases hsyn

end Synthesis

section Foreground

variable {x y : FloatVal} {k : Nat}

/-- An element that can be read lies in the frame (20_memory.md R73). -/
theorem State.FrameAt.lt (h : s.FrameAt k x y) : k < 1024 := (readElement_ok.1 h.1).1

/-- Writing the next element extends the part of the frame that holds values. -/
theorem State.FrameUpTo.write_next (h : s.FrameUpTo k) (hk : k < 1024) (x y : FloatVal) :
    (s.writeFrame k x y).FrameUpTo (k + 1) := by
  intro i hi
  rcases Nat.lt_succ_iff_lt_or_eq.1 hi with hlt | rfl
  · exact h.write hk x y i hlt
  · exact ⟨x, y, readRe_writeFrame_same hk x y, readIm_writeFrame_same hk x y⟩

/-- Writing an element keeps a full frame full. -/
theorem State.FrameFull.write (h : s.FrameFull) (hk : k < 1024) (x y : FloatVal) : (s.writeFrame k x y).FrameFull :=
  State.FrameUpTo.write h hk x y

/-- Under SNAPSHOT the triggering poll fills `SNAP` (44_orchestrator.md R222). -/
theorem snapFull_takeSnapshot (s : State) : s.takeSnapshot.SnapFull := fun i hi =>
  ⟨s.sample i, (readSnap_takeSnapshot hi).trans (readSamp_eq_sample hi)⟩

/-- A butterfly group of a stage divides the frame (41_fft_peak.md R160 (a)). -/
theorem State.StageInv.group_dvd (h : s.StageInv) : 2 * s.fhalf.toNat ∣ 1024 := by
  obtain ⟨hlo, hhi, hhalf, -⟩ := h
  rw [hhalf, ← pow_succ', Nat.sub_add_cancel hlo]
  exact pow_dvd_pow 2 hhi

/-- A multiple of the group size short of the frame's end has room for one more group. -/
theorem add_group_le {d a b : Nat} (ha : d ∣ a) (hb : d ∣ b) (hlt : a < b) : a + d ≤ b := by
  have hd := Nat.le_of_dvd (Nat.sub_pos_of_lt hlt) (Nat.dvd_sub hb ha)
  omega

/-- Each load extends the frame by one element; the last one fills it and the walk starts at 0 (41_fft_peak.md R156). -/
theorem phaseInv_fftLoad (he : Effect .fftLoad s t) (hseq : s.seq = .load) (hp : s.PhaseInv) : t.PhaseInv := by
  simp only [State.PhaseInv, hseq] at hp
  obtain ⟨hfi, hframe, hsnap⟩ := hp
  cases he with
  | fftLoadLast hread hlast =>
    refine ⟨Nat.zero_le _, (by decide : 0 = rev10 0), ?_⟩
    rw [hlast] at hframe ⊢
    exact hframe.write_next (by decide) _ _
  | fftLoadNext hread hlast =>
    have hnext : (s.fi + 1).toNat = s.fi.toNat + 1 := by bv_omega
    simp only [State.PhaseInv, State.writeFrame_seq, hseq, hnext]
    exact ⟨by omega, hframe.write_next (by omega) _ _, hsnap⟩

/-- The walk's index stays the bit reversal of its counter (41_fft_peak.md R157, R158). -/
theorem phaseInv_fftRev (he : Effect .fftRev s t) (hseq : s.seq = .rev) (hp : s.PhaseInv) : t.PhaseInv := by
  simp only [State.PhaseInv, hseq] at hp
  obtain ⟨hfi, hfj, hframe⟩ := hp
  have hnext : (s.fi + 1).toNat = s.fi.toNat + 1 := by bv_omega
  have hrev {j : Nat} (hwalk : walkNext s.fj.toNat = some j) :
      (BitVec.ofNat 10 j).toNat = rev10 (s.fi.toNat + 1) := by
    rw [hfj, walkNext_rev10 _ (by omega), Option.some.injEq] at hwalk
    rw [← hwalk, BitVec.toNat_ofNat, Nat.mod_eq_of_lt (rev10_lt _ (by omega))]
  cases he with
  | fftRevSwapLast _ hx hy =>
    exact ⟨Nat.le_refl 1, Nat.le_of_ble_eq_true rfl, (hframe.write hx.lt _ _).write hy.lt _ _⟩
  | fftRevKeepLast => exact ⟨Nat.le_refl 1, Nat.le_of_ble_eq_true rfl, hframe⟩
  | fftRevSwapNext _ hx hy hwalk hlast =>
    simp only [State.PhaseInv, State.writeFrame_seq, hseq, hnext]
    exact ⟨by omega, hrev hwalk, (hframe.write hx.lt _ _).write hy.lt _ _⟩
  | fftRevKeepNext _ hwalk hlast =>
    simp only [State.PhaseInv, hseq, hnext]
    exact ⟨by omega, hrev hwalk, hframe⟩

/-- A stage starts at its first group and position (41_fft_peak.md R159). -/
theorem phaseInv_fftStg (he : Effect .fftStg s t) (hseq : s.seq = .stg) (hp : s.PhaseInv) : t.PhaseInv := by
  simp only [State.PhaseInv, hseq] at hp
  obtain ⟨hlo, hhi, hframe⟩ := hp
  cases he with
  | fftStg htw =>
    have hhalf : (BitVec.ofNat 10 (halfGroup s.fstg.toNat)).toNat = 2 ^ (s.fstg.toNat - 1) := by
      rw [BitVec.toNat_ofNat, halfGroup, Nat.mod_eq_of_lt (Nat.pow_lt_pow_right (by decide) (by omega))]
    have hstage : State.StageInv { s with fhalf := BitVec.ofNat 10 (halfGroup s.fstg.toNat), fj := 0 } :=
      ⟨hlo, hhi, hhalf, hhalf ▸ Nat.two_pow_pos _⟩
    exact ⟨hstage, by simpa using Nat.le_of_dvd (by decide) hstage.group_dvd, Nat.dvd_zero _, hframe⟩

/-- The next group of a stage fits the frame, or the position is done (41_fft_peak.md R160). -/
theorem phaseInv_fftBfy (he : Effect .fftBfy s t) (hseq : s.seq = .bfy) (hp : s.PhaseInv) : t.PhaseInv := by
  simp only [State.PhaseInv, hseq] at hp
  obtain ⟨hstage, hle, hdvd, hframe⟩ := hp
  cases he with
  | fftBfy hy hx htr hti =>
    have hfull (a b c d : FloatVal) := (State.FrameFull.write hframe hx.lt a b).write hy.lt c d
    have hgrp : (BitVec.ofNat 11 s.bfyNextGroup).toNat = s.fgrp.toNat + 2 * s.fhalf.toNat := by
      rw [BitVec.toNat_ofNat, State.bfyNextGroup, Nat.mod_eq_of_lt (by omega)]
    have hgroup : 2 * s.fhalf.toNat ∣ s.fgrp.toNat + 2 * s.fhalf.toNat := Nat.dvd_add_self_right.2 hdvd
    by_cases hend : 1024 ≤ s.bfyNextGroup
    · simp only [State.PhaseInv, if_pos hend]
      exact ⟨hstage, hfull _ _ _ _⟩
    · simp only [State.PhaseInv, if_neg hend, hgrp]
      exact ⟨hstage, add_group_le hgroup hstage.group_dvd (not_le.1 hend), hgroup, hfull _ _ _ _⟩

/-- The next position lies in its stage and the next stage has a twiddle entry (41_fft_peak.md R161). -/
theorem phaseInv_fftTwn (he : Effect .fftTwn s t) (hseq : s.seq = .twn) (hp : s.PhaseInv) : t.PhaseInv := by
  simp only [State.PhaseInv, hseq] at hp
  obtain ⟨hstage, hframe⟩ := hp
  have ⟨hlo, hhi, hhalf, _⟩ := hstage
  cases he with
  | fftTwnPosition hfj =>
    have hlt : (s.fj + 1).toNat < s.fhalf.toNat := by bv_omega
    exact ⟨⟨hlo, hhi, hhalf, hlt⟩, by simpa using Nat.le_of_dvd (by decide) hstage.group_dvd, Nat.dvd_zero _, hframe⟩
  | fftTwnStage _ hstg =>
    have hnext : (s.fstg + 1).toNat = s.fstg.toNat + 1 := by bv_omega
    simp only [State.PhaseInv, hnext]
    exact ⟨by omega, by omega, hframe⟩
  | fftTwnLast => exact hframe

/-- The bin examined stays within the search, and the best bin is never 0 (41_fft_peak.md R165). -/
theorem phaseInv_pkScan (he : Effect .pkScan s t) (hseq : s.seq = .pks) (hp : s.PhaseInv) : t.PhaseInv := by
  simp only [State.PhaseInv, hseq] at hp
  obtain ⟨hlo, hhi, hbin, hframe⟩ := hp
  have hnext : (s.pkK + 1).toNat = s.pkK.toNat + 1 := by bv_omega
  have hset : (s.pkK.setWidth 9).toNat = s.pkK.toNat := by bv_omega
  cases he with
  | pkScanGreater | pkScanNotGreater =>
    by_cases hlast : s.pkK.toNat = 511
    · simp only [State.PhaseInv, if_pos hlast]
      omega
    · simp only [State.PhaseInv, if_neg hlast, hnext]
      exact ⟨by omega, by omega, by omega, hframe⟩

/-- A 32-bit input is at the threshold after 14 halvings at most (42_quantizer.md R182). -/
theorem phaseInv_qntRed (he : Effect .qntRed s t) (hseq : s.seq = .qrd) (hp : s.PhaseInv) : t.PhaseInv := by
  simp only [State.PhaseInv, hseq] at hp
  obtain ⟨hoct, hdiv⟩ := hp
  cases he with
  | qntRedHalve hq =>
    have hlt : s.qOct.toNat < 14 := by
      refine lt_of_le_of_ne hoct fun heq => ?_
      rw [heq] at hdiv
      have hq : 317900 < s.qF.toNat := hq
      omega
    have hnext : (s.qOct + 1).toNat = s.qOct.toNat + 1 := by bv_omega
    simp only [State.PhaseInv, hseq, hnext]
    refine ⟨hlt, ?_⟩
    rw [BitVec.toNat_ushiftRight, Nat.shiftRight_eq_div_pow, hdiv, Nat.div_div_eq_div_mul, pow_one, pow_succ]
  | qntRedLeave => exact ⟨hoct, hdiv, Nat.le_refl 1, Nat.le_of_ble_eq_true rfl, Nat.zero_lt_one⟩

/-- The best note is among those compared (42_quantizer.md R183). -/
theorem phaseInv_qntCmp (he : Effect .qntCmp s t) (hseq : s.seq = .qcm) (hp : s.PhaseInv) : t.PhaseInv := by
  simp only [State.PhaseInv, hseq] at hp
  obtain ⟨hoct, hdiv, hlo, hhi, hbest⟩ := hp
  have hnext : (s.qN + 1).toNat = s.qN.toNat + 1 := by bv_omega
  cases he with
  | qntCmpNearer | qntCmpNotNearer =>
    by_cases hlast : s.qN.toNat = 11
    · simp only [State.PhaseInv, if_pos hlast]
      omega
    · simp only [State.PhaseInv, if_neg hlast, hnext]
      omega

/-- Loading starts with no element in the frame, under SNAPSHOT from a full `SNAP` (44_orchestrator.md R222). -/
theorem phaseInv_orchPoll (he : Effect .orchPoll s t) (hp : s.PhaseInv) : t.PhaseInv := by
  have hempty (u : State) : u.FrameUpTo 0 := fun k hk => absurd hk (Nat.not_lt_zero k)
  cases he with
  | orchPollRacy _ hpol => exact ⟨Nat.zero_le _, hempty _, fun hsnap => nomatch hpol.symm.trans hsnap⟩
  | orchPollSnapshot => exact ⟨Nat.zero_le _, hempty _, fun _ => snapFull_takeSnapshot s⟩
  | orchPollIdle => exact hp

theorem phaseInv_pkInit (he : Effect .pkInit s t) (hseq : s.seq = .pki) (hp : s.PhaseInv) : t.PhaseInv := by
  simp only [State.PhaseInv, hseq] at hp
  cases he with
  | pkInit => exact ⟨Nat.le_refl 2, Nat.le_of_ble_eq_true rfl, Nat.le_refl 1, hp⟩

theorem phaseInv_qntStart (he : Effect .qntStart s t) : t.PhaseInv := by
  cases he with
  | qntStart => exact ⟨Nat.zero_le _, (Nat.div_one _).symm⟩

/-- An operation of the foreground leads from its phase's condition to the next phase's. -/
theorem Effect.phaseInv_of_agent_fg (he : Effect i s t) (hp : s.PhaseInv) (hfg : i.agent = .fg)
    (hen : enabled i s = true) : t.PhaseInv := by
  cases i with
  | orchInit | orchPub | pkDone | qntOut => cases he <;> exact trivial
  | orchPoll => exact phaseInv_orchPoll he hp
  | fftLoad => exact phaseInv_fftLoad he (foregroundEnabled_iff.1 hen).1 hp
  | fftRev => exact phaseInv_fftRev he (foregroundEnabled_iff.1 hen).1 hp
  | fftStg => exact phaseInv_fftStg he (foregroundEnabled_iff.1 hen).1 hp
  | fftBfy => exact phaseInv_fftBfy he (foregroundEnabled_iff.1 hen).1 hp
  | fftTwn => exact phaseInv_fftTwn he (foregroundEnabled_iff.1 hen).1 hp
  | pkInit => exact phaseInv_pkInit he (foregroundEnabled_iff.1 hen).1 hp
  | pkScan => exact phaseInv_pkScan he (foregroundEnabled_iff.1 hen).1 hp
  | qntStart => exact phaseInv_qntStart he
  | qntRed => exact phaseInv_qntRed he (foregroundEnabled_iff.1 hen).1 hp
  | qntCmp => exact phaseInv_qntCmp he (foregroundEnabled_iff.1 hen).1 hp
  | _ => cases hfg

end Foreground

section Step

/-- Before `ORCH.INIT` only a reset and the converter have operations enabled (70_reset_and_hazards.md R281, R290). -/
theorem State.Inv.enabled_boot (h : s.Inv) (hboot : s.seq = .boot) (hen : enabled i s = true) :
    i = .envReset ∨ i = .orchInit ∨ ∃ v, i = .envEoc v := by
  obtain ⟨hap, haa, hsp, hsa⟩ := h.bootIdle hboot
  cases i with
  | envReset => exact .inl rfl
  | orchInit => exact .inr (.inl rfl)
  | envEoc v => exact .inr (.inr ⟨v, rfl⟩)
  | _ => simp [enabled, State.foregroundEnabled, hboot, hap, haa, hsp, hsa] at hen

/-- Past a foreground operation the machine is not in `BOOT` (10_state.md R22). -/
theorem Effect.seq_ne_boot_of_agent_fg (he : Effect i s t) (hfg : i.agent = .fg) (hen : enabled i s = true) :
    t.seq ≠ .boot := by
  intro hboot
  have hedge := he.seq_edge hfg hen
  simp [hboot, Phase.code] at hedge

/-- Past `BOOT` no operation but a reset leads back, and in `BOOT` none pends a tick (70_reset_and_hazards.md R290). -/
theorem Effect.bootIdle (he : Effect i s t) (h : s.Inv) (hen : enabled i s = true) (hr : i ≠ .envReset)
    (hboot : t.seq = .boot) : t.Idle := by
  have hfg : i.agent ≠ .fg := fun hfg => he.seq_ne_boot_of_agent_fg hfg hen hboot
  have hs : s.seq = .boot := (he.sameForeground hfg hr).1.symm.trans hboot
  obtain hreset | hinit | ⟨v, rfl⟩ := h.enabled_boot hs hen
  · exact absurd hreset hr
  · exact absurd (hinit ▸ rfl) hfg
  · cases he
    exact h.bootIdle hs

/-- `ORCH.INIT` fills the tables on the way out of `BOOT`, and no other operation writes them. -/
theorem Effect.tablesLoaded (he : Effect i s t) (h : s.Inv) (hen : enabled i s = true) (hr : i ≠ .envReset)
    (hboot : t.seq ≠ .boot) : t.TablesLoaded := by
  by_cases hinit : i = .orchInit
  · subst hinit
    cases he
    exact (tablesLoaded_loadTables s).congr rfl rfl rfl rfl
  · obtain ⟨hnote, hlabel, hwave⟩ := he.tables_eq hinit hr
    refine (h.tables fun hs => ?_).congr he.cfg_eq hnote hlabel hwave
    obtain hreset | hinit' | ⟨v, rfl⟩ := h.enabled_boot hs hen
    · exact hr hreset
    · exact hinit hinit'
    · cases he
      exact hboot hs

/-- An admitted sample has `ADC_BITS` bits (30_encoding.md R108). -/
theorem Effect.adcWidth (he : Effect i s t) (h : s.Inv) (hen : enabled i s = true) (hr : i ≠ .envReset) :
    t.adcDr.toNat < 2 ^ t.cfg.val.adcBits := by
  cases he with
  | envReset => exact absurd rfl hr
  | envEoc => exact of_decide_eq_true hen
  | _ => exact h.adcWidth

theorem Effect.synInv (he : Effect i s t) (h : s.Inv) (hen : enabled i s = true) (hr : i ≠ .envReset) :
    t.SynInv := by
  by_cases hsyn : i.agent = .syn
  · refine he.synInv_of_agent_syn h.synInv hsyn (h.tables fun hs => ?_) hen
    obtain rfl | rfl | ⟨v, rfl⟩ := h.enabled_boot hs hen <;> cases hsyn
  · exact he.synInv_of_agent_ne_syn h.synInv hsyn hr

theorem Effect.phaseInv (he : Effect i s t) (h : s.Inv) (hen : enabled i s = true) (hr : i ≠ .envReset) :
    t.PhaseInv := by
  by_cases hfg : i.agent = .fg
  · exact he.phaseInv_of_agent_fg h.phase hfg hen
  · exact h.phase.congr he.cfg_eq (he.sameForeground hfg hr)

/-- The trace and the counter of free values are no part of the invariant (log 8). -/
theorem State.Inv.set_trace_draws (h : s.Inv) (trace : List Byte) (draws : Nat) :
    State.Inv { s with trace := trace, draws := draws } where
  bootIdle := h.bootIdle
  tables hboot := (h.tables hboot).congr rfl rfl rfl rfl
  synPhase := h.synPhase
  channels := h.channels
  phases := h.phases
  mixBound := h.mixBound
  adcWidth := h.adcWidth
  phase := h.phase.congr rfl (by simp [State.SameForeground])

/-- An operation that completes keeps the invariant. -/
theorem inv_of_exec (h : s.Inv) (hx : exec i s = .next t) : t.Inv := by
  have he := exec_effect hx
  have hen := exec_next_enabled hx
  by_cases hr : i = .envReset
  · subst hr
    cases he
    exact (inv_resetWith s.cfg).set_trace_draws s.trace (s.draws + 1)
  · obtain ⟨hsynPhase, hchannels, hphases, hmix⟩ := he.synInv h hen hr
    exact ⟨he.bootIdle h hen hr, he.tablesLoaded h hen hr, hsynPhase, hchannels, hphases, hmix,
      he.adcWidth h hen hr, he.phaseInv h hen hr⟩

/-- Choosing the next operation takes bytes from the trace or draws a free value, and does nothing else. -/
theorem nextOperation_ok {u : State} (h : nextOperation s = .ok (i, u)) :
    ∃ trace draws, u = { s with trace := trace, draws := draws } := by
  unfold nextOperation at h
  split at h
  · cases h
    exact ⟨_, _, rfl⟩
  · split at h <;> cases h
    exact ⟨_, _, rfl⟩

/-- A step that completes ran the next operation. -/
theorem step_next (h : step s = .next t) : ∃ i u, nextOperation s = .ok (i, u) ∧ exec i u = .next t := by
  unfold step at h
  split at h
  next i u hnext => exact ⟨i, u, hnext, h⟩
  next => cases h

/-- Settles O57: the next operation runs in a state that differs in trace and draws only, and whatever path it takes
keeps each part of the invariant. -/
theorem stepKeepsTheInvariant : Obligations.StepKeepsTheInvariant := by
  intro s t h hstep
  obtain ⟨i, u, hnext, hx⟩ := step_next hstep
  obtain ⟨trace, draws, rfl⟩ := nextOperation_ok hnext
  exact ⟨inv_of_exec (h.set_trace_draws trace draws) hx, (exec_effect hx).cfg_eq⟩

end Step

end Sys2Proof.Machine
end

section
/-! SUPPORT. The memories: who writes each, their canonical form, and the snapshot the analyzer loads from
(20_memory.md R70, R71, R81, 10_state.md R49, R51). -/

namespace Sys2Proof.Machine

variable {s t u : State} {i : Instr}

section Owners

/-- Settles O53: along each path, a field the path does not name keeps its value; `ENV.EOC`, `QNT.START`, `SYN.MIX` and
`SYN.OUT` mark their own register, and `SYN.OUT` puts its code before the stream. -/
theorem ownFieldsRecordTheRun : Obligations.OwnFieldsRecordTheRun := by
  intro i s t h hr
  cases exec_effect h with
  | envReset => exact absurd rfl hr
  | _ => simp

/-- Settles O54: a read depends on its memory and, for `SAMP`, the configuration, and along each path a memory the
path's operation does not own is the same list. -/
theorem memoriesAreWrittenByTheirOwners : Obligations.MemoriesAreWrittenByTheirOwners := by
  intro i s t h hr
  simp only [State.readSamp, State.readSnap, State.readRe, State.readIm, State.readNote, State.readLabel,
    State.readWave]
  cases exec_effect h with
  | envReset => exact absurd rfl hr
  | _ => simp

end Owners

section Canonical

/-- No memory of the reset state lists a cell (10_state.md R50). -/
theorem canonical_resetWith (c : ValidConfig) : (State.resetWith c).Canonical := ⟨rfl, rfl, rfl, rfl, rfl, rfl, rfl⟩

theorem State.Canonical.writeSamp (h : s.Canonical) {k : Nat} (hk : k < 1024) (v : BitVec 16) :
    (s.writeSamp k v).Canonical :=
  { h with samp := Memory.wf_write _ h.samp hk v }

theorem State.Canonical.writeFrame (h : s.Canonical) {k : Nat} (hk : k < 1024) (x y : FloatVal) :
    (s.writeFrame k x y).Canonical :=
  { h with re := Memory.wf_write _ h.re hk x, im := Memory.wf_write _ h.im hk y }

theorem State.Canonical.takeSnapshot (h : s.Canonical) : s.takeSnapshot.Canonical :=
  { h with snap := Memory.wf_tabulate _ _ (Nat.le_refl 1024) }

/-- A valid configuration's tables fill their memories exactly (10_state.md R42, R44, R45). -/
theorem State.Canonical.loadTables (h : s.Canonical) : s.loadTables.Canonical := by
  obtain ⟨hnote, hlabel, hwave, -⟩ := Config_valid_lengths s.cfg.property
  exact { h with
    note := Memory.wf_ofList _ hnote.le
    label := Memory.wf_ofList _ hlabel.le
    wave := Memory.wf_ofList _ hwave.le }

/-- An element the analyzer can load lies in its memory (20_memory.md R73). -/
theorem readSource_lt {k : Nat} {v : BitVec 16} (h : s.readSource k = .ok v) : k < 1024 := by
  unfold State.readSource at h
  split at h <;> exact (readElement_ok.1 h).1

/-- A path writes its memories, if any, at indices inside them, by a write or by filling. -/
theorem Effect.canonical (he : Effect i s t) (h : s.Canonical) : t.Canonical := by
  cases he with
  | envReset => exact { canonical_resetWith s.cfg with }
  | acqStore => exact { h.writeSamp s.wrIdx.isLt s.adcDr with }
  | orchInit => exact { h.loadTables with }
  | orchPollSnapshot => exact { h.takeSnapshot with }
  | fftLoadLast hread | fftLoadNext hread => exact { h.writeFrame (readSource_lt hread) _ _ with }
  | fftRevSwapLast _ hx hy | fftRevSwapNext _ hx hy => exact { (h.writeFrame hx.lt _ _).writeFrame hy.lt _ _ with }
  | fftBfy hy hx => exact { (h.writeFrame hx.lt _ _).writeFrame hy.lt _ _ with }
  | _ => exact { h with }

/-- Settles O58: the next operation runs in a state with the same memories, and each of its paths keeps their form. -/
theorem stepKeepsMemoriesCanonical : Obligations.StepKeepsMemoriesCanonical := by
  intro s t h hstep
  obtain ⟨i, u, hnext, hx⟩ := step_next hstep
  obtain ⟨trace, draws, rfl⟩ := nextOperation_ok hnext
  exact (exec_effect hx).canonical { h with }

end Canonical

section Snapshot

/-- `t` is in the analyzer's loading of the ring as it stood in `s`, or past it: `SNAP` is that ring, and the elements
loaded so far, all 1024 of them once `LOAD` is left, are its converted samples (20_memory.md R81). -/
structure State.LoadsRingOf (t s : State) : Prop where
  cfg : t.cfg = s.cfg
  snap : ∀ k, k < 1024 → t.readSnap k = s.readSamp k
  frame : ∀ (k : Nat) (v : BitVec 16), k < 1024 → (t.seq = .load → k < t.fi.toNat) → s.readSamp k = .ok v →
    t.FrameAt k (s.fmt.ofNat v.toNat) s.fmt.zero

/-- The triggering poll copies the ring, and nothing is loaded yet (44_orchestrator.md R222). -/
theorem loadsRingOf_orchPoll (he : Effect .orchPoll s t) (hpol : s.cfg.val.loadPolicy = .snapshot)
    (hidx : s.wrIdx.toNat = 1023) : t.LoadsRingOf s := by
  cases he with
  | orchPollRacy _ hracy => exact nomatch hracy.symm.trans hpol
  | orchPollSnapshot =>
    exact ⟨rfl, fun k hk => readSnap_takeSnapshot hk, fun k v _ hloaded => absurd (hloaded rfl) (Nat.not_lt_zero k)⟩
  | orchPollIdle hne => exact absurd hidx hne

theorem frameAt_writeFrame_same {k : Nat} (hk : k < 1024) (x y : FloatVal) : (s.writeFrame k x y).FrameAt k x y :=
  ⟨readRe_writeFrame_same hk x y, readIm_writeFrame_same hk x y⟩

theorem State.FrameAt.writeFrame_other {j k : Nat} {a b : FloatVal} (h : s.FrameAt j a b) (hne : j ≠ k)
    (x y : FloatVal) : (s.writeFrame k x y).FrameAt j a b :=
  ⟨(readRe_writeFrame_other hne x y).trans h.1, (readIm_writeFrame_other hne x y).trans h.2⟩

/-- An operation of the environment or a handler touches neither `SNAP` nor the frame (20_memory.md R82). -/
theorem State.LoadsRingOf.congr (h : t.LoadsRingOf s) (hcfg : u.cfg = t.cfg) (hfg : t.SameForeground u) :
    u.LoadsRingOf s := by
  obtain ⟨hseq, hfi, -, -, -, -, -, -, -, -, -, -, -, -, -, -, -, -, -, -, -, -, -, -, -, hsnap, hre, him, -⟩ := hfg
  refine ⟨hcfg.trans h.cfg, ?_, ?_⟩
  · simpa only [State.readSnap, hsnap] using h.snap
  · simpa only [State.FrameAt, State.readRe, State.readIm, hre, him, hseq, hfi] using h.frame

/-- One load moves the next sample of the ring into the frame (41_fft_peak.md R156). -/
theorem State.LoadsRingOf.fftLoad (h : t.LoadsRingOf s) (hpol : s.cfg.val.loadPolicy = .snapshot)
    (he : Effect .fftLoad t u) (hseq : t.seq = .load) : u.LoadsRingOf s := by
  obtain ⟨hcfg, hsnap, hframe⟩ := h
  have hwritten {v : BitVec 16} (hread : t.readSource t.fi.toNat = .ok v) {k : Nat} {w : BitVec 16}
      (hk : k < t.fi.toNat + 1) (hw : s.readSamp k = .ok w) :
      (t.writeFrame t.fi.toNat (t.fmt.ofNat v.toNat) t.fmt.zero).FrameAt k (s.fmt.ofNat w.toNat) s.fmt.zero := by
    have hlt := readSource_lt hread
    rcases Nat.lt_succ_iff_lt_or_eq.1 hk with hlow | rfl
    · exact (hframe k w (hlow.trans hlt) (fun _ => hlow) hw).writeFrame_other hlow.ne _ _
    · rw [State.readSource, hcfg, hpol] at hread
      have hvw : v = w := Except.ok.inj (hread.symm.trans ((hsnap _ hlt).trans hw))
      rw [hvw, State.fmt, hcfg]
      exact frameAt_writeFrame_same hlt _ _
  cases he with
  | fftLoadLast hread hlast => exact ⟨hcfg, hsnap, fun k w hk _ => hwritten hread (by omega)⟩
  | fftLoadNext hread hlast =>
    have hnext : (t.fi + 1).toNat = t.fi.toNat + 1 := by have := readSource_lt hread; bv_omega
    exact ⟨hcfg, hsnap, fun k w hk hloaded => hwritten hread (hnext ▸ hloaded hseq)⟩

/-- No operation but a reset or another one of the foreground disturbs the loading (20_memory.md R81). -/
theorem State.LoadsRingOf.exec (h : t.LoadsRingOf s) (hpol : s.cfg.val.loadPolicy = .snapshot) (hr : i ≠ .envReset)
    (hload : i.agent = .fg → i = .fftLoad) (hx : exec i t = .next u) : u.LoadsRingOf s := by
  have he := exec_effect hx
  by_cases hfg : i.agent = .fg
  · obtain rfl := hload hfg
    exact h.fftLoad hpol he (foregroundEnabled_iff.1 (exec_next_enabled hx)).1
  · exact h.congr he.cfg_eq (he.sameForeground hfg hr)

/-- A run of several operations that completes began with one that completed. -/
theorem runOperations_cons_next {ops : List Instr} (h : runOperations (i :: ops) s = .next t) :
    ∃ u, exec i s = .next u ∧ runOperations ops u = .next t := by
  rw [runOperations] at h
  split at h
  next u hx => exact ⟨u, hx, h⟩
  all_goals cases h

theorem State.LoadsRingOf.runOperations (hpol : s.cfg.val.loadPolicy = .snapshot) {ops : List Instr}
    (hops : ∀ i ∈ ops, i ≠ .envReset ∧ (i.agent = .fg → i = .fftLoad)) (h : u.LoadsRingOf s)
    (hrun : runOperations ops u = .next t) : t.LoadsRingOf s := by
  induction ops generalizing u with
  | nil =>
    cases hrun
    exact h
  | cons i ops ih =>
    obtain ⟨w, hx, hrest⟩ := runOperations_cons_next hrun
    obtain ⟨⟨hr, hload⟩, hops⟩ := List.forall_mem_cons.1 hops
    exact ih hops (h.exec hpol hr hload hx) hrest

/-- Settles O28: the triggering poll makes `SNAP` the ring, and every operation admitted after it keeps the loading from
that ring going. -/
theorem snapshotFrameIsTheRingAtTheTrigger : Obligations.SnapshotFrameIsTheRingAtTheTrigger := by
  intro s u t ops _ hpol _ hidx hpoll hops hrun
  exact ((loadsRingOf_orchPoll (exec_effect hpoll) hpol hidx).runOperations hpol hops hrun).frame

end Snapshot

end Sys2Proof.Machine
end

section
/-! SUPPORT. Under the invariant every enabled operation completes: what it reads is there (20_memory.md R73,
10_state.md R51, 60_exceptions.md R242). -/

namespace Sys2Proof.Machine

variable {s : State} {i : Instr}

section Completion

/-- The answer is a next state: no fault and no refusal. -/
def Completes (r : Result) : Prop := ∃ t, r = .next t

theorem completes_next (t : State) : Completes (.next t) := ⟨t, rfl⟩

/-- Where an operation is enabled it completes if its body does. -/
theorem completes_guarded {b : Result} (hen : enabled i s = true) (h : Completes b) : Completes (guarded i s b) := by
  rwa [guarded_enabled hen]

theorem completes_andThen {α : Type} {r : Except Fault α} {v : α} {k : α → Result} (hr : r = .ok v)
    (h : Completes (k v)) : Completes (andThen r k) := by
  rwa [hr, andThen_ok]

/-- Where a foreground operation is enabled, the condition that holds is its phase's (10_state.md R22). -/
theorem State.PhaseInv.of_enabled {p : Phase} (hp : s.PhaseInv) (hen : s.foregroundEnabled p = true) :
    (s.goto p).PhaseInv := by
  obtain ⟨rfl, -⟩ := foregroundEnabled_iff.1 hen
  exact hp

/-- A read of the full frame at an index inside it goes on. -/
theorem completes_withFrame {f : FloatVal → FloatVal → Result} (hframe : s.FrameFull) {k : Nat} (hk : k < 1024)
    (h : ∀ x y, Completes (f x y)) : Completes (s.withFrame k f) := by
  obtain ⟨x, y, hx, hy⟩ := hframe k hk
  rw [withFrame_ok hx hy]
  exact h x y

/-- Every phase below the modulus selects an entry of the wavetable, so the mix finds a sum (43_synthesis.md R206). -/
theorem exists_mixChannels_ok (htab : s.TablesLoaded) {l : List Oscillator} (hl : ∀ o ∈ l, o.acc.toNat < 65536000) :
    ∃ sum, s.mixChannels l = .ok sum := by
  obtain ⟨-, -, hwave⟩ := htab
  induction l with
  | nil => exact ⟨0, rfl⟩
  | cons o l ih =>
    obtain ⟨ho, hl⟩ := List.forall_mem_cons.1 hl
    obtain ⟨sum, hsum⟩ := ih hl
    have hidx : waveIndex o < 1000 := by
      unfold waveIndex
      omega
    rw [State.mixChannels, hwave _ hidx, hsum]
    exact ⟨_, rfl⟩

theorem completes_synMix (h : s.Inv) (hen : enabled .synMix s = true) : Completes (exec .synMix s) := by
  have hboot : s.seq ≠ .boot := fun hboot => by simpa using h.enabled_boot hboot hen
  obtain ⟨sum, hsum⟩ := exists_mixChannels_ok (h.tables hboot) h.phases
  exact completes_guarded hen (completes_andThen hsum (completes_next _))

theorem completes_fftLoad (hp : s.PhaseInv) (hen : enabled .fftLoad s = true) : Completes (exec .fftLoad s) := by
  obtain ⟨hfi, -, hsnap⟩ : s.fi.toNat ≤ 1023 ∧ s.FrameUpTo s.fi.toNat ∧ (s.cfg.val.loadPolicy = .snapshot → s.SnapFull) :=
    hp.of_enabled hen
  have hread : ∃ v, s.readSource s.fi.toNat = .ok v := by
    unfold State.readSource
    split
    · exact ⟨_, readSamp_eq_sample (by omega)⟩
    · exact hsnap ‹_› _ (by omega)
  obtain ⟨v, hv⟩ := hread
  exact completes_guarded hen (completes_andThen hv (completes_next _))

/-- The walk has a next index at every index but the last bit reversal (41_fft_peak.md R157, R158). -/
theorem completes_walkStep (hfi : s.fi.toNat ≤ 1022) (hfj : s.fj.toNat = rev10 s.fi.toNat) : Completes s.walkStep := by
  have hwalk := walkNext_rev10 s.fi.toNat (by omega)
  rw [← hfj] at hwalk
  exact ⟨_, walkStep_some hwalk⟩

theorem completes_fftRev (hp : s.PhaseInv) (hen : enabled .fftRev s = true) : Completes (exec .fftRev s) := by
  obtain ⟨hfi, hfj, hframe⟩ : s.fi.toNat ≤ 1022 ∧ s.fj.toNat = rev10 s.fi.toNat ∧ s.FrameFull := hp.of_enabled hen
  refine completes_guarded hen ?_
  split
  · exact completes_withFrame hframe (by omega) fun _ _ => completes_withFrame hframe s.fj.isLt fun _ _ =>
      completes_walkStep hfi hfj
  · exact completes_walkStep hfi hfj

/-- `TW` has an entry for each of the ten stages (10_state.md R47). -/
theorem exists_twiddle (c : ValidConfig) {n : Nat} (hlo : 1 ≤ n) (hhi : n ≤ 10) : ∃ p, c.val.twiddle n = some p := by
  obtain ⟨-, -, -, htw⟩ := Config_valid_lengths c.property
  have hlt : n - 1 < c.val.tw.length := by omega
  exact ⟨_, (if_neg (by omega)).trans (List.getElem?_eq_getElem hlt)⟩

theorem completes_fftStg (hp : s.PhaseInv) (hen : enabled .fftStg s = true) : Completes (exec .fftStg s) := by
  obtain ⟨hlo, hhi, -⟩ : 1 ≤ s.fstg.toNat ∧ s.fstg.toNat ≤ 10 ∧ s.FrameFull := hp.of_enabled hen
  obtain ⟨p, hp⟩ := exists_twiddle s.cfg hlo hhi
  refine completes_guarded hen ?_
  rw [hp]
  exact completes_next _

theorem completes_fftBfy (hp : s.PhaseInv) (hen : enabled .fftBfy s = true) : Completes (exec .fftBfy s) := by
  obtain ⟨⟨-, -, -, hfj⟩, hgroup, -, hframe⟩ : s.StageInv ∧ s.fgrp.toNat + 2 * s.fhalf.toNat ≤ 1024 ∧
    2 * s.fhalf.toNat ∣ s.fgrp.toNat ∧ s.FrameFull := hp.of_enabled hen
  have hlower : s.bfyLower < 1024 := by
    unfold State.bfyLower State.bfyUpper
    omega
  have hupper : s.bfyUpper < 1024 := lt_of_le_of_lt (Nat.le_add_right _ _) hlower
  exact completes_guarded hen (completes_withFrame hframe hupper fun _ _ =>
    completes_withFrame hframe hlower fun _ _ => completes_next _)

theorem completes_pkInit (hp : s.PhaseInv) (hen : enabled .pkInit s = true) : Completes (exec .pkInit s) := by
  have hframe : s.FrameFull := hp.of_enabled hen
  exact completes_guarded hen (completes_withFrame hframe (by decide) fun _ _ => completes_next _)

theorem completes_pkScan (hp : s.PhaseInv) (hen : enabled .pkScan s = true) : Completes (exec .pkScan s) := by
  obtain ⟨-, -, -, hframe⟩ := hp.of_enabled hen
  exact completes_guarded hen (completes_withFrame hframe s.pkK.isLt fun _ _ => completes_next _)

theorem completes_qntRed (htab : s.TablesLoaded) (hen : enabled .qntRed s = true) : Completes (exec .qntRed s) := by
  obtain ⟨hnote, -, -⟩ := htab
  refine completes_guarded hen ?_
  split
  · exact completes_next _
  · exact completes_andThen (hnote 0 0 (by decide) (by decide)) (completes_next _)

theorem completes_qntCmp (htab : s.TablesLoaded) (hp : s.PhaseInv) (hen : enabled .qntCmp s = true) :
    Completes (exec .qntCmp s) := by
  obtain ⟨-, -, -, hn, -⟩ := hp.of_enabled hen
  have hn : s.qN.toNat ≤ 11 := hn
  obtain ⟨hnote, -, -⟩ := htab
  exact completes_guarded hen (completes_andThen (hnote 0 s.qN.toNat (by decide) (by omega)) (completes_next _))

/-- The clamped octave names a row of the note table (42_quantizer.md R185). -/
theorem resultOctave_lt (s : State) : s.resultOctave < 9 := by
  unfold State.resultOctave octaveCount
  split <;> omega

theorem completes_qntOut (htab : s.TablesLoaded) (hp : s.PhaseInv) (hen : enabled .qntOut s = true) :
    Completes (exec .qntOut s) := by
  obtain ⟨-, hbest⟩ : s.qOct.toNat ≤ 14 ∧ s.qBest.toNat ≤ 11 := hp.of_enabled hen
  have hlt : s.qBest.toNat < 12 := by omega
  obtain ⟨hnote, hlabel, -⟩ := htab
  exact completes_guarded hen (completes_andThen (hlabel _ hlt)
    (completes_andThen (hnote _ _ (resultOctave_lt s) hlt) (completes_next _)))

/-- Settles O59: every element an enabled operation reads lies in its memory and holds a value, `FFT.STG` finds its
twiddle entry and `FFT.REV` its next index; the other operations read nothing that can be missing. -/
theorem enabledOperationsComplete : Obligations.EnabledOperationsComplete := by
  intro i s h hen
  have htab (p : Phase) (hp : s.foregroundEnabled p = true) (hne : p ≠ .boot) : s.TablesLoaded :=
    h.tables ((foregroundEnabled_iff.1 hp).1 ▸ hne)
  cases i with
  | synMix => exact completes_synMix h hen
  | fftLoad => exact completes_fftLoad h.phase hen
  | fftRev => exact completes_fftRev h.phase hen
  | fftStg => exact completes_fftStg h.phase hen
  | fftBfy => exact completes_fftBfy h.phase hen
  | pkInit => exact completes_pkInit h.phase hen
  | pkScan => exact completes_pkScan h.phase hen
  | qntRed => exact completes_qntRed (htab _ hen nofun) hen
  | qntCmp => exact completes_qntCmp (htab _ hen nofun) h.phase hen
  | qntOut => exact completes_qntOut (htab _ hen nofun) h.phase hen
  | _ => exact completes_guarded hen (completes_next _)

end Completion

end Sys2Proof.Machine
end

section
/-! SUPPORT. The decoder and the encoder are inverse, and the words that decode to nothing are those of R110
(30_encoding.md R107 to R110). -/

namespace Sys2Proof

section Words

variable {w : Word} {i : Instr}

/-- Format `EV` (30_encoding.md R107, R110). -/
theorem decodeWord_ev (hop : w.toNat / 2 ^ 24 = 3) : decodeWord w =
    if w.toNat % 2 ^ 24 < 2 ^ 16 then .ok (.envEoc (BitVec.ofNat 16 (w.toNat % 2 ^ 24)))
    else .error (.nonzeroField (w.toNat / 2 ^ 24)) :=
  if_pos hop

/-- Format `E0` with the number of an operation (30_encoding.md R107, R110). -/
theorem decodeWord_plain (hplain : plainOp (w.toNat / 2 ^ 24) = some i) : decodeWord w =
    if w.toNat % 2 ^ 24 = 0 then .ok i else .error (.nonzeroField (w.toNat / 2 ^ 24)) := by
  have hop : w.toNat / 2 ^ 24 ≠ 3 := by
    intro hop
    rw [hop] at hplain
    cases hplain
  rw [decodeWord, if_neg hop, hplain]

/-- A number that no operation has (30_encoding.md R110). -/
theorem decodeWord_unknown (hop : w.toNat / 2 ^ 24 ≠ 3) (hplain : plainOp (w.toNat / 2 ^ 24) = none) :
    decodeWord w = .error (.unknownOp (w.toNat / 2 ^ 24)) := by
  rw [decodeWord, if_neg hop, hplain]

/-- A word is an operation's word where the top byte is the operation's number and the bits below are its operand
(30_encoding.md R107). -/
theorem encodeWord_eq_iff :
    encodeWord i = w ↔ w.toNat / 2 ^ 24 = opNumber i ∧ w.toNat % 2 ^ 24 = operandField i := by
  have hlt := operandField_lt i
  rw [← BitVec.toNat_inj, encodeWord_toNat]
  omega

/-- A word that decodes is the word of what it decodes to: each format fixes every bit outside the operand
(30_encoding.md R107, R110). -/
theorem encodeWord_of_decodeWord_ok (h : decodeWord w = .ok i) : encodeWord i = w := by
  rw [encodeWord_eq_iff]
  by_cases hop : w.toNat / 2 ^ 24 = 3
  · rw [decodeWord_ev hop] at h
    split at h <;> cases h
    next hlow => exact ⟨hop, (Nat.mod_eq_of_lt hlow).symm⟩
  · cases hplain : plainOp (w.toNat / 2 ^ 24) with
    | none =>
      rw [decodeWord_unknown hop hplain] at h
      cases h
    | some j =>
      rw [decodeWord_plain hplain] at h
      split at h <;> cases h
      next hlow =>
        obtain ⟨hnum, hfield⟩ := plainOp_some hplain
        exact ⟨hnum.symm, hlow.trans hfield.symm⟩

/-- The 26 words of format `E0` are constants; a word of format `EV` is taken apart (30_encoding.md R107, R109). -/
theorem decodeWord_encodeWord (i : Instr) : decodeWord (encodeWord i) = .ok i := by
  cases i with
  | envEoc v =>
    obtain ⟨hop, hlow⟩ : (encodeWord (.envEoc v)).toNat / 2 ^ 24 = 3 ∧
      (encodeWord (.envEoc v)).toNat % 2 ^ 24 = v.toNat := encodeWord_eq_iff.1 rfl
    rw [decodeWord_ev hop, hlow, if_pos v.isLt, BitVec.ofNat_toNat, BitVec.setWidth_eq]
  | _ => rfl

/-- The operation numbers no row of the operation map has (30_encoding.md R110). -/
def ReservedOp (n : Nat) : Prop :=
  n = 0x00 ∨ (0x05 ≤ n ∧ n ≤ 0x0F) ∨ (0x13 ≤ n ∧ n ≤ 0x1F) ∨ (0x25 ≤ n ∧ n ≤ 0x2F) ∨ (0x33 ≤ n ∧ n ≤ 0x3F) ∨
    (0x48 ≤ n ∧ n ≤ 0x4F) ∨ (0x54 ≤ n ∧ n ≤ 0xFF)

/-- The numbers that format `E0` has no operation for are the reserved ones and that of `ENV.EOC`
(30_encoding.md R109, R110). -/
theorem plainOp_eq_none_iff {n : Nat} (hn : n < 2 ^ 8) : plainOp n = none ↔ n = 3 ∨ ReservedOp n := by
  unfold plainOp ReservedOp
  split
  case h_27 =>
    simp only [imp_false, true_iff] at *
    omega
  all_goals simp

/-- A check that answers a value or an error answers an error exactly where it fails. -/
theorem exists_ite_error_iff {α ε : Type} {c : Prop} [Decidable c] {a : α} {d : ε} :
    (∃ e, (if c then .ok a else .error d : Except ε α) = .error e) ↔ ¬c := by
  split <;> simp [*]

/-- A word is illegal by a bit above the operand in format `EV`, by its number, or by a bit of the zero field in
format `E0` (30_encoding.md R110). -/
theorem exists_decodeWord_error_iff : (∃ e, decodeWord w = .error e) ↔
    if w.toNat / 2 ^ 24 = 3 then ¬w.toNat % 2 ^ 24 < 2 ^ 16
    else ReservedOp (w.toNat / 2 ^ 24) ∨ ¬w.toNat % 2 ^ 24 = 0 := by
  by_cases hop : w.toNat / 2 ^ 24 = 3
  · rw [decodeWord_ev hop, exists_ite_error_iff, if_pos hop]
  · have hnone : plainOp (w.toNat / 2 ^ 24) = none ↔ ReservedOp (w.toNat / 2 ^ 24) := by
      rw [plainOp_eq_none_iff (Nat.div_lt_of_lt_mul w.isLt), or_iff_right hop]
    rw [if_neg hop]
    cases hplain : plainOp (w.toNat / 2 ^ 24) with
    | none => exact iff_of_true ⟨_, decodeWord_unknown hop hplain⟩ (.inl (hnone.1 hplain))
    | some i =>
      have hres : ¬ReservedOp (w.toNat / 2 ^ 24) := fun h => nomatch hplain.symm.trans (hnone.2 h)
      rw [decodeWord_plain hplain, exists_ite_error_iff, or_iff_right hres]

/-- Decoding bytes that begin with a word's bytes is decoding the word, and leaves the others. -/
theorem decode_wordBytes_append (w : Word) (rest : List Byte) :
    decode (wordBytes w ++ rest) = (decodeWord w).map (·, rest) := by
  simp only [wordBytes, List.cons_append, List.nil_append, decode, joinBytes_wordBytes]
  cases decodeWord w <;> rfl

end Words

end Sys2Proof

namespace Sys2Proof.Machine

section Encoding

/-- Settles O2: decoding the bytes is decoding the word, and an operation's word decodes to the operation. -/
theorem decodeInvertsEncode : Obligations.DecodeInvertsEncode := by
  intro i rest
  rw [encode, decode_wordBytes_append, decodeWord_encodeWord]
  rfl

/-- Settles O3: the number and the operand read from a word make the word again. -/
theorem encodeInvertsDecode : Obligations.EncodeInvertsDecode :=
  fun _ _ h => encodeWord_of_decodeWord_ok h

/-- Bytes that begin with no operation's word give no next operation, and the free choice is not made. -/
theorem nextOperation_of_decode_error {s : State} {e : DecodeError} (hne : s.trace ≠ [])
    (h : decode s.trace = .error e) : nextOperation s = .error e := by
  unfold nextOperation
  split
  case h_1 hnil => exact absurd hnil hne
  case h_2 => rw [h]

/-- Settles O4: which words are illegal is arithmetic on the two fields, and a trace that begins with one gives no next
operation. -/
theorem illegalWordsAreRefused : Obligations.IllegalWordsAreRefused := by
  constructor
  · intro w
    rw [exists_decodeWord_error_iff, ReservedOp]
    split <;> omega
  · intro s w e rest htrace hw
    have hdecode : decode s.trace = .error e := by
      rw [htrace, decode_wordBytes_append, hw]
      rfl
    rw [step, nextOperation_of_decode_error (by simp [htrace, wordBytes]) hdecode]

/-- Settles O1: the bytes are constants, so the decoder is run on each. -/
theorem specWordsDecode : Obligations.SpecWordsDecode := by
  unfold Obligations.SpecWordsDecode
  decide

end Encoding

end Sys2Proof.Machine
end

section
/-! SUPPORT. An operation is refused by its guard alone (30_encoding.md R111, 60_exceptions.md R247). -/

namespace Sys2Proof.Machine

section Refusal

variable {s : State} {i : Instr}

/-- The answer is a next state or a fault, no refusal. -/
def NotRefused (r : Result) : Prop := ∀ x, r ≠ .refused x

theorem notRefused_next (t : State) : NotRefused (.next t) := nofun

theorem notRefused_fault (f : Fault) : NotRefused (.fault f) := nofun

/-- A read does not refuse: it gives a value or a fault. -/
theorem notRefused_andThen {α : Type} {r : Except Fault α} {k : α → Result} (h : ∀ v, NotRefused (k v)) :
    NotRefused (andThen r k) := by
  cases r with
  | ok v => exact h v
  | error f => exact notRefused_fault f

theorem notRefused_withFrame {k : Nat} {f : FloatVal → FloatVal → Result} (h : ∀ x y, NotRefused (f x y)) :
    NotRefused (s.withFrame k f) :=
  notRefused_andThen fun x => notRefused_andThen fun y => h x y

/-- The walk that does not end is a fault (41_fft_peak.md R157). -/
theorem notRefused_walkStep (s : State) : NotRefused s.walkStep := by
  unfold State.walkStep
  split
  · exact notRefused_fault _
  · exact notRefused_next _

theorem notRefused_guarded {b : Result} (hen : enabled i s = true) (h : NotRefused b) : NotRefused (guarded i s b) := by
  rwa [guarded_enabled hen]

theorem notRefused_fftRev (hen : enabled .fftRev s = true) : NotRefused (exec .fftRev s) := by
  refine notRefused_guarded hen ?_
  split
  · exact notRefused_withFrame fun _ _ => notRefused_withFrame fun _ _ => notRefused_walkStep _
  · exact notRefused_walkStep s

theorem notRefused_fftStg (hen : enabled .fftStg s = true) : NotRefused (exec .fftStg s) := by
  refine notRefused_guarded hen ?_
  split
  · exact notRefused_fault _
  · exact notRefused_next _

theorem notRefused_qntRed (hen : enabled .qntRed s = true) : NotRefused (exec .qntRed s) := by
  refine notRefused_guarded hen ?_
  split
  · exact notRefused_next _
  · exact notRefused_andThen fun _ => notRefused_next _

/-- Where an operation is enabled it is not refused: nothing in its body refuses (30_encoding.md R111). -/
theorem notRefused_exec (hen : enabled i s = true) : NotRefused (exec i s) := by
  cases i with
  | fftRev => exact notRefused_fftRev hen
  | fftStg => exact notRefused_fftStg hen
  | qntRed => exact notRefused_qntRed hen
  | synMix | fftLoad | qntCmp => exact notRefused_guarded hen (notRefused_andThen fun _ => notRefused_next _)
  | qntOut =>
    exact notRefused_guarded hen (notRefused_andThen fun _ => notRefused_andThen fun _ => notRefused_next _)
  | pkInit | pkScan => exact notRefused_guarded hen (notRefused_withFrame fun _ _ => notRefused_next _)
  | fftBfy =>
    exact notRefused_guarded hen (notRefused_withFrame fun _ _ => notRefused_withFrame fun _ _ => notRefused_next _)
  | _ => exact notRefused_guarded hen (notRefused_next _)

/-- Settles O7: the guard refuses, and past it every path ends in a next state or a fault. -/
theorem refusedExactlyWhenNotEnabled : Obligations.RefusedExactlyWhenNotEnabled := by
  intro i s
  constructor
  · rintro ⟨r, hr⟩
    exact Bool.eq_false_iff.2 fun hen => notRefused_exec hen r hr
  · exact fun hen => ⟨_, exec_disabled hen⟩

end Refusal

end Sys2Proof.Machine
end

section
/-! SUPPORT. The acquisition path: when its operations run and what each leaves (40_acquisition.md R132 to R136), and
what any number of them leaves in the ring buffer (R137). -/

namespace Sys2Proof.Machine

variable {s t : State} {i : Instr} {v : BitVec 16}

section Guards

theorem enabled_envAtick_iff : enabled .envAtick s = true ↔ s.seq ≠ .boot := decide_eq_true_iff

theorem enabled_envEoc_iff : enabled (.envEoc v) s = true ↔ v.toNat < 2 ^ s.cfg.val.adcBits := decide_eq_true_iff

theorem enabled_acqEnter_iff : enabled .acqEnter s = true ↔ s.acqPend = true ∧ s.acqAct = false := by
  simp [enabled]

theorem enabled_acqWait_iff : enabled .acqWait s = true ↔ s.acqAct = true ∧ s.adcEoc = false := by
  simp [enabled]

theorem enabled_acqStore_iff : enabled .acqStore s = true ↔ s.acqAct = true ∧ s.adcEoc = true := by
  simp [enabled]

/-- An operation is refused where the condition that enables it fails (30_encoding.md R111). -/
theorem exec_refused_of_enabled_iff {p : Prop} (hiff : enabled i s = true ↔ p) (hp : ¬p) :
    exec i s = .refused (.notEnabled i) :=
  exec_disabled (Bool.eq_false_iff.2 (mt hiff.1 hp))

end Guards

section Operations

/-- The state `ENV.ATICK` leaves where no tick is pending (40_acquisition.md R133). -/
def State.ticked (s : State) : State :=
  { s with acqPend := true }

/-- The state `ENV.EOC v` leaves (40_acquisition.md R132). -/
def State.converted (s : State) (v : BitVec 16) : State :=
  { s with adcDr := v, adcEoc := true, valued := { s.valued with adcDr := true } }

/-- The state `ACQ.STORE` leaves (40_acquisition.md R136). -/
def State.stored (s : State) : State :=
  { s.writeSamp s.wrIdx.toNat s.adcDr with adcEoc := false, acqAct := false, wrIdx := s.wrIdx + 1 }

theorem exec_envAtick_lost (hseq : s.seq ≠ .boot) (hpend : s.acqPend = true) :
    exec .envAtick s = .next (s.raise .acqOvr) :=
  (guarded_enabled (enabled_envAtick_iff.2 hseq)).trans (congrArg _ (if_pos hpend))

theorem exec_envAtick_pended (hseq : s.seq ≠ .boot) (hpend : s.acqPend = false) :
    exec .envAtick s = .next s.ticked :=
  (guarded_enabled (enabled_envAtick_iff.2 hseq)).trans (congrArg _ (if_neg (Bool.eq_false_iff.1 hpend)))

theorem exec_envEoc (hv : v.toNat < 2 ^ s.cfg.val.adcBits) : exec (.envEoc v) s = .next (s.converted v) :=
  guarded_enabled (enabled_envEoc_iff.2 hv)

theorem exec_acqEnter (hguard : s.acqPend = true ∧ s.acqAct = false) : exec .acqEnter s = .next s.enterAcq :=
  guarded_enabled (enabled_acqEnter_iff.2 hguard)

theorem exec_acqWait_counted (hguard : s.acqAct = true ∧ s.adcEoc = false)
    (hexp : waitExpired s.cfg.val.acqWaitMax (nextPollCount s.acqWcnt) = false) :
    exec .acqWait s = .next { s with acqWcnt := BitVec.ofNat 32 (nextPollCount s.acqWcnt) } :=
  (guarded_enabled (enabled_acqWait_iff.2 hguard)).trans (congrArg _ (if_neg (Bool.eq_false_iff.1 hexp)))

theorem exec_acqWait_expired (hguard : s.acqAct = true ∧ s.adcEoc = false)
    (hexp : waitExpired s.cfg.val.acqWaitMax (nextPollCount s.acqWcnt) = true) :
    exec .acqWait s = .next { s with
      acqWcnt := BitVec.ofNat 32 (nextPollCount s.acqWcnt), status := raisedStatus s.status .acqTo,
      acqAct := false } :=
  (guarded_enabled (enabled_acqWait_iff.2 hguard)).trans (congrArg _ (if_pos hexp))

theorem exec_acqStore (hguard : s.acqAct = true ∧ s.adcEoc = true) : exec .acqStore s = .next s.stored :=
  guarded_enabled (enabled_acqStore_iff.2 hguard)

/-- A poll count has reached the wait bound exactly where the bound is finite and not above it
(40_acquisition.md R135). -/
theorem waitExpired_iff {bound : Option Nat} {n : Nat} :
    waitExpired bound n = true ↔ ∃ m, bound = some m ∧ m ≤ n := by
  simp [waitExpired_eq_any, Option.any_eq_true]

/-- The word of `ENV.EOC v` is `0x0300` followed by the operand field (30_encoding.md R107). -/
theorem encodeWord_envEoc (v : BitVec 16) : encodeWord (.envEoc v) = 0x0300#16 ++ v := by
  have hlt := v.isLt
  have hw : (0x0300#16 ++ v).toNat = 0x0300 * 2 ^ 16 + v.toNat := by
    rw [BitVec.toNat_append, ← Nat.shiftLeft_add_eq_or_of_lt hlt, Nat.shiftLeft_eq, BitVec.toNat_ofNat]
  rw [encodeWord_eq_iff, hw, opNumber, operandField]
  omega

/-- Settles O10: the tick is lost where one is pending and pended where none is. -/
theorem acquisitionTickIsPendedOrLost : Obligations.AcquisitionTickIsPendedOrLost :=
  ⟨rfl, fun _ => ⟨exec_envAtick_lost, exec_envAtick_pended, fun hseq =>
    exec_refused_of_enabled_iff enabled_envAtick_iff (not_not.2 hseq)⟩⟩

/-- Settles O11: the operand's bound is the operation's whole guard. -/
theorem conversionLatchesTheSample : Obligations.ConversionLatchesTheSample := fun v =>
  ⟨encodeWord_envEoc v ▸ decodeWord_encodeWord (.envEoc v), fun s =>
    ⟨fun hv => ⟨s.converted v, exec_envEoc hv, rfl⟩, exec_refused_of_enabled_iff enabled_envEoc_iff⟩⟩

/-- Settles O13: entering is the operation's one effect. -/
theorem acquisitionHandlerIsEntered : Obligations.AcquisitionHandlerIsEntered :=
  ⟨rfl, fun _ => ⟨exec_acqEnter, exec_refused_of_enabled_iff enabled_acqEnter_iff⟩⟩

/-- Settles O14: whether the wait ends is whether a finite bound is reached. -/
theorem pollCountsAndTimesOut : Obligations.PollCountsAndTimesOut := by
  refine ⟨rfl, fun s => ⟨fun hguard => ⟨fun hlt => ?_, fun m hm hle => ?_⟩,
    exec_refused_of_enabled_iff enabled_acqWait_iff⟩⟩
  · refine exec_acqWait_counted hguard (Bool.eq_false_iff.2 fun hexp => ?_)
    obtain ⟨m, hm, hle⟩ := waitExpired_iff.1 hexp
    exact absurd (hlt m hm) (not_lt.2 hle)
  · exact exec_acqWait_expired hguard (waitExpired_iff.2 ⟨m, hm, hle⟩)

end Operations

section Ring

/-- Reading the ring buffer after a write to one of its slots. -/
theorem readSamp_writeSamp (hw : Memory.wf 1024 s.cfg.val.ringResetAt s.samp = true) {j k : Nat} (hk : k < 1024)
    (v : BitVec 16) : (s.writeSamp k v).readSamp j = if j = k then .ok v else s.readSamp j := by
  by_cases hjk : j = k
  · rw [if_pos hjk, hjk, readSamp_writeSamp_same hw hk]
  · rw [if_neg hjk, readSamp_writeSamp_other hjk]

/-- The write index advances modulo the ring's size (40_acquisition.md R136). -/
theorem toNat_wrIdx_succ (w : BitVec 10) : (w + 1).toNat = (w.toNat + 1) % 1024 := BitVec.toNat_add w 1

/-- Settles O15: the slot at the old index is written, and a read of any other is the read before. -/
theorem storeWritesTheRingAndAdvances : Obligations.StoreWritesTheRingAndAdvances :=
  ⟨rfl, fun s => ⟨fun hguard hw => ⟨s.stored, exec_acqStore hguard, rfl, toNat_wrIdx_succ s.wrIdx,
    fun _ => readSamp_writeSamp hw s.wrIdx.isLt s.adcDr⟩, exec_refused_of_enabled_iff enabled_acqStore_iff⟩⟩

/-- Of all operations but a reset only `ACQ.STORE` moves the write index (40_acquisition.md R137 (c)). -/
theorem Effect.toNat_wrIdx (he : Effect i s t) (hr : i ≠ .envReset) :
    t.wrIdx.toNat = (s.wrIdx.toNat + if i = .acqStore then 1 else 0) % 1024 := by
  cases he with
  | envReset => exact absurd rfl hr
  | acqStore => exact toNat_wrIdx_succ s.wrIdx
  | _ => exact (Nat.mod_eq_of_lt s.wrIdx.isLt).symm

/-- Settles O16, by induction on the sequence: each operation advances the index by one or not at all. -/
theorem writeIndexCountsTheStores : Obligations.WriteIndexCountsTheStores := by
  intro ops
  induction ops with
  | nil =>
    intro s t _ hrun
    cases hrun
    exact (Nat.mod_eq_of_lt s.wrIdx.isLt).symm
  | cons i ops ih =>
    intro s t hops hrun
    obtain ⟨u, hx, hrest⟩ := runOperations_cons_next hrun
    obtain ⟨hr, hops⟩ := List.ne_and_not_mem_of_not_mem_cons hops
    simp only [ih u t hops hrest, (exec_effect hx).toNat_wrIdx hr.symm, List.count_cons, beq_iff_eq]
    omega

end Ring

section Acquisitions

/-- An acquisition can begin: past `BOOT`, none pending or active, the ring's memory in canonical form (log 4). -/
structure State.AcqReady (s : State) : Prop where
  booted : s.seq ≠ .boot
  notPending : s.acqPend = false
  notActive : s.acqAct = false
  canonical : Memory.wf 1024 s.cfg.val.ringResetAt s.samp = true

/-- The state one whole acquisition of `v` leaves: tick, conversion, entry, store (30_encoding.md R114). -/
def State.acquired (s : State) (v : BitVec 16) : State :=
  (s.ticked.converted v).enterAcq.stored

theorem runOperations_acqRunOperations (h : s.AcqReady) (hv : v.toNat < 2 ^ s.cfg.val.adcBits) :
    runOperations (acqRunOperations v) s = .next (s.acquired v) := by
  rw [acqRunOperations, runOperations_cons (exec_envAtick_pended h.booted h.notPending),
    runOperations_cons (exec_envEoc (s := s.ticked) hv),
    runOperations_cons (exec_acqEnter (s := s.ticked.converted v) ⟨rfl, h.notActive⟩),
    runOperations_cons (exec_acqStore (s := (s.ticked.converted v).enterAcq) ⟨rfl, rfl⟩)]
  rfl

/-- An acquisition leaves the machine ready for the next. -/
theorem State.AcqReady.acquired (h : s.AcqReady) (v : BitVec 16) : (s.acquired v).AcqReady :=
  ⟨h.booted, rfl, rfl, Memory.wf_write _ h.canonical s.wrIdx.isLt v⟩

theorem toNat_wrIdx_acquired (s : State) (v : BitVec 16) :
    (s.acquired v).wrIdx.toNat = (s.wrIdx.toNat + 1) % 1024 :=
  toNat_wrIdx_succ s.wrIdx

/-- An acquisition writes the slot at the old index only. -/
theorem State.AcqReady.readSamp_acquired (h : s.AcqReady) (v : BitVec 16) (k : Nat) :
    (s.acquired v).readSamp k = if k = s.wrIdx.toNat then .ok v else s.readSamp k :=
  readSamp_writeSamp h.canonical s.wrIdx.isLt v

/-- One acquisition per sample completes, whatever the number of samples. -/
theorem runOperations_acquisitions {vs : List (BitVec 16)} (h : s.AcqReady)
    (hvs : ∀ v ∈ vs, v.toNat < 2 ^ s.cfg.val.adcBits) :
    runOperations (vs.flatMap acqRunOperations) s = .next (vs.foldl State.acquired s) := by
  induction vs generalizing s with
  | nil => rfl
  | cons v vs ih =>
    obtain ⟨hv, hvs⟩ := List.forall_mem_cons.1 hvs
    rw [List.flatMap_cons, runOperations_append (runOperations_acqRunOperations h hv)]
    exact ih (h.acquired v) hvs

/-- The write index counts the acquisitions (40_acquisition.md R137 (a)). -/
theorem toNat_wrIdx_foldl_acquired (vs : List (BitVec 16)) (s : State) :
    (vs.foldl State.acquired s).wrIdx.toNat = (s.wrIdx.toNat + vs.length) % 1024 := by
  induction vs generalizing s with
  | nil => exact (Nat.mod_eq_of_lt s.wrIdx.isLt).symm
  | cons v vs ih =>
    rw [List.foldl_cons, ih, toNat_wrIdx_acquired, List.length_cons]
    omega

/-- A slot no acquisition wrote is as before. -/
theorem State.AcqReady.readSamp_foldl_other (h : s.AcqReady) {vs : List (BitVec 16)} {k : Nat}
    (hk : ∀ j, j < vs.length → (s.wrIdx.toNat + j) % 1024 ≠ k) :
    (vs.foldl State.acquired s).readSamp k = s.readSamp k := by
  induction vs generalizing s with
  | nil => rfl
  | cons v vs ih =>
    have hw := s.wrIdx.isLt
    have hhead : k ≠ s.wrIdx.toNat := by
      have := hk 0 (Nat.succ_pos _)
      omega
    rw [List.foldl_cons, ih (h.acquired v), h.readSamp_acquired, if_neg hhead]
    intro j hj
    have := hk (j + 1) (Nat.succ_lt_succ hj)
    rw [toNat_wrIdx_acquired]
    omega

/-- Each of the last 1024 samples is in its slot: at most 1023 acquisitions follow it, and none comes round to the slot
again (40_acquisition.md R137 (b)). -/
theorem State.AcqReady.readSamp_foldl_last (h : s.AcqReady) {vs : List (BitVec 16)} {j : Nat}
    (hj : vs[j]? = some v) (hlast : vs.length ≤ j + 1024) :
    (vs.foldl State.acquired s).readSamp ((s.wrIdx.toNat + j) % 1024) = .ok v := by
  induction vs generalizing s j with
  | nil => cases hj
  | cons w vs ih =>
    have hw := s.wrIdx.isLt
    rw [List.length_cons] at hlast
    rw [List.foldl_cons]
    cases j with
    | zero =>
      cases hj
      have hslot : (s.wrIdx.toNat + 0) % 1024 = s.wrIdx.toNat := Nat.mod_eq_of_lt hw
      rw [hslot, (h.acquired v).readSamp_foldl_other, h.readSamp_acquired, if_pos rfl]
      intro j hj
      rw [toNat_wrIdx_acquired]
      omega
    | succ j =>
      have hslot : (s.wrIdx.toNat + (j + 1)) % 1024 = ((s.acquired w).wrIdx.toNat + j) % 1024 := by
        rw [toNat_wrIdx_acquired]
        omega
      rw [hslot]
      exact ih (h.acquired w) hj (by omega)

/-- Settles O17: the run is a fold of whole acquisitions, and each part is a law of that fold. -/
theorem ringHoldsTheLastSamples : Obligations.RingHoldsTheLastSamples := by
  intro vs s hseq hpend hact hwf hvs
  have h : s.AcqReady := ⟨hseq, hpend, hact, hwf⟩
  exact ⟨vs.foldl State.acquired s, runOperations_acquisitions h hvs, toNat_wrIdx_foldl_acquired vs s,
    fun _ _ => h.readSamp_foldl_last, fun _ _ => h.readSamp_foldl_other⟩

end Acquisitions

end Sys2Proof.Machine
end

section
/-! SUPPORT. Binary32 on the whole numbers its patterns stand for (41_fft_peak.md R150): the magnitude parts are in the
order of their values, every conversion of a sample is exact, and a comparison is one of the values (R152). -/

namespace Sys2Proof

section Significands

/-- The value of a magnitude part in units `2^-149` (41_fft_peak.md R150). -/
def magnitudeUnits (m : Nat) : Nat :=
  if m / 2 ^ 23 = 0 then m % 2 ^ 23 else (2 ^ 23 + m % 2 ^ 23) * 2 ^ (m / 2 ^ 23 - 1)

theorem b32Units_eq (c : FloatVal) : b32Units c = magnitudeUnits (b32Magnitude c) := rfl

/-- A significand `q` at exponent `d` has the value `q * 2^d`; a significand of `2^24` carries into the exponent field
and has it too. -/
theorem magnitudeUnits_significand {d q : Nat} (hnormal : d = 0 ∨ 2 ^ 23 ≤ q) (hq : q ≤ 2 ^ 24) :
    magnitudeUnits (d * 2 ^ 23 + q) = q * 2 ^ d := by
  unfold magnitudeUnits
  rcases Nat.lt_or_ge q (2 ^ 23) with hsub | hnorm
  · obtain rfl : d = 0 := by omega
    rw [if_pos (by omega)]
    omega
  · rw [if_neg (by omega)]
    rcases Nat.lt_or_eq_of_le hq with hlt | rfl
    · have he : (d * 2 ^ 23 + q) / 2 ^ 23 - 1 = d := by omega
      have hf : 2 ^ 23 + (d * 2 ^ 23 + q) % 2 ^ 23 = q := by omega
      rw [he, hf]
    · have he : (d * 2 ^ 23 + 2 ^ 24) / 2 ^ 23 - 1 = d + 1 := by omega
      have hf : 2 ^ 23 + (d * 2 ^ 23 + 2 ^ 24) % 2 ^ 23 = 2 ^ 23 := by omega
      rw [he, hf, pow_succ]
      ring

/-- Every magnitude part is a significand below `2^24` at some exponent, at least `2^23` unless the exponent is 0. -/
theorem exists_significand (m : Nat) : ∃ d q, m = d * 2 ^ 23 + q ∧ (d = 0 ∨ 2 ^ 23 ≤ q) ∧ q < 2 ^ 24 :=
  ⟨m / 2 ^ 23 - 1, m - (m / 2 ^ 23 - 1) * 2 ^ 23, by omega, by omega, by omega⟩

/-- A greater magnitude part stands for a greater value. -/
theorem magnitudeUnits_strictMono : StrictMono magnitudeUnits := by
  refine strictMono_nat_of_lt_succ fun m => ?_
  obtain ⟨d, q, rfl, hnormal, hq⟩ := exists_significand m
  rw [Nat.add_assoc, magnitudeUnits_significand hnormal (by omega), magnitudeUnits_significand (by omega) (by omega)]
  exact Nat.mul_lt_mul_of_pos_right (Nat.lt_succ_self q) (Nat.two_pow_pos d)

theorem magnitudeUnits_lt_iff {m n : Nat} : magnitudeUnits m < magnitudeUnits n ↔ m < n :=
  magnitudeUnits_strictMono.lt_iff_lt

end Significands

section Patterns

variable {c : FloatVal} {n : Bool} {m : Nat}

theorem b32Sign_pattern (hm : m < 2 ^ 31) : b32Sign (b32Pattern n m) = n := by
  unfold b32Sign b32Pattern
  cases n
  · rw [if_neg nofun, Nat.div_eq_of_lt hm]
    rfl
  · rw [if_pos rfl, Nat.add_div_left _ (Nat.two_pow_pos 31), Nat.div_eq_of_lt hm]
    rfl

theorem b32Magnitude_pattern (hm : m < 2 ^ 31) : b32Magnitude (b32Pattern n m) = m := by
  unfold b32Magnitude b32Pattern
  split <;> omega

/-- The value of a signed magnitude part. -/
theorem b32Value_pattern (hm : m < 2 ^ 31) :
    b32Value (b32Pattern n m) = if n then -(magnitudeUnits m : Int) else magnitudeUnits m := by
  rw [b32Value, b32Units_eq, b32Sign_pattern hm, b32Magnitude_pattern hm]

theorem b32Magnitude_lt (c : FloatVal) : b32Magnitude c < 2 ^ 31 := Nat.mod_lt _ (Nat.two_pow_pos 31)

theorem natAbs_b32Value (c : FloatVal) : (b32Value c).natAbs = b32Units c := by
  unfold b32Value
  split <;> simp

theorem b32IsFinite_iff : b32IsFinite c = true ↔ b32Magnitude c < b32Infinity := iff_of_eq Nat.blt_eq

theorem b32IsNaN_of_finite (h : b32IsFinite c = true) : b32IsNaN c = false :=
  Bool.eq_false_iff.2 fun hnan => lt_asymm (b32IsFinite_iff.1 h) (Nat.blt_eq.mp hnan)

theorem b32IsInf_of_finite (h : b32IsFinite c = true) : b32IsInf c = false :=
  Bool.eq_false_iff.2 fun hinf => (b32IsFinite_iff.1 h).ne (Nat.eq_of_beq_eq_true hinf)

end Patterns

section Comparison

variable {a b : FloatVal}

/-- The order of the patterns is the order of their values (41_fft_peak.md R152). -/
theorem b32Order_lt_iff : b32Order b < b32Order a ↔ b32Value b < b32Value a := by
  have hab := magnitudeUnits_lt_iff (m := b32Magnitude a) (n := b32Magnitude b)
  have hba := magnitudeUnits_lt_iff (m := b32Magnitude b) (n := b32Magnitude a)
  have ha : 0 < magnitudeUnits (b32Magnitude a) ↔ 0 < b32Magnitude a := magnitudeUnits_lt_iff (m := 0)
  have hb : 0 < magnitudeUnits (b32Magnitude b) ↔ 0 < b32Magnitude b := magnitudeUnits_lt_iff (m := 0)
  simp only [b32Order, b32Value, b32Units_eq]
  cases b32Sign a <;> cases b32Sign b <;> simp only [Bool.false_eq_true, if_false, if_true] <;> omega

/-- `fgt` of two patterns that are no NaN compares their places in the order. -/
theorem b32Gt_iff (ha : b32IsNaN a = false) (hb : b32IsNaN b = false) :
    b32Gt a b = true ↔ b32Order b < b32Order a := by
  simp [b32Gt, ha, hb]

/-- A comparison with a NaN is false (41_fft_peak.md R152). -/
theorem b32Gt_nan (h : b32IsNaN a = true ∨ b32IsNaN b = true) : b32Gt a b = false := by
  rcases h with h | h <;> simp [b32Gt, h]

end Comparison

end Sys2Proof
end

section
/-! SUPPORT. Rounding once, to nearest with ties to even (41_fft_peak.md R151): where the kept bits of a magnitude lie
among the magnitude parts, and that the rounded part is the nearest of all. -/

namespace Sys2Proof

section RoundEven

variable {mag drop : Nat}

/-- `roundEven` keeps the quotient or takes the next: at most half a unit away, at a tie the even one. -/
theorem roundEven_cases (mag drop : Nat) :
    roundEven mag drop = mag / 2 ^ drop ∧ 2 * (mag % 2 ^ drop) ≤ 2 ^ drop ∧
        (2 * (mag % 2 ^ drop) = 2 ^ drop → mag / 2 ^ drop % 2 = 0) ∨
      roundEven mag drop = mag / 2 ^ drop + 1 ∧ 2 ^ drop ≤ 2 * (mag % 2 ^ drop) ∧
        (2 * (mag % 2 ^ drop) = 2 ^ drop → mag / 2 ^ drop % 2 = 1) := by
  simp only [roundEven, Bool.or_eq_true, Bool.and_eq_true, decide_eq_true_eq, Nat.beq_eq]
  split
  · exact .inr ⟨rfl, by omega, by omega⟩
  · exact .inl ⟨rfl, by omega, by omega⟩

/-- Nothing is rounded where the dropped bits are 0. -/
theorem roundEven_of_dvd (h : 2 ^ drop ∣ mag) : roundEven mag drop = mag / 2 ^ drop := by
  have hpos := Nat.two_pow_pos drop
  have hmod := Nat.mod_eq_zero_of_dvd h
  rcases roundEven_cases mag drop with ⟨hround, -, -⟩ | ⟨-, hle, -⟩
  · exact hround
  · omega

end RoundEven

section Drop

variable {mag shift : Nat}

theorem le_b32Drop (mag shift : Nat) : shift ≤ b32Drop mag shift := Nat.le_max_right _ _

/-- What is kept of a magnitude has at most 24 bits. -/
theorem div_b32Drop_lt (mag shift : Nat) : mag / 2 ^ b32Drop mag shift < 2 ^ 24 := by
  refine Nat.div_lt_of_lt_mul (lt_of_lt_of_le (Nat.lt_log2_self (n := mag)) ?_)
  rw [← pow_add]
  have hdrop : Nat.log2 mag + 1 - 24 ≤ b32Drop mag shift := Nat.le_max_left _ _
  exact Nat.pow_le_pow_right (by decide) (by omega)

/-- What is kept of a magnitude has 24 bits, unless only the bits below the unit are dropped. -/
theorem le_div_b32Drop (h : b32Drop mag shift - shift ≠ 0) : 2 ^ 23 ≤ mag / 2 ^ b32Drop mag shift := by
  have hdrop : b32Drop mag shift + 23 = Nat.log2 mag := by
    unfold b32Drop at h ⊢
    omega
  have hmag : mag ≠ 0 := by
    rintro rfl
    rw [Nat.log2_zero] at hdrop
    omega
  rw [Nat.le_div_iff_mul_le (Nat.two_pow_pos _), ← pow_add, add_comm, hdrop]
  exact Nat.log2_self_le hmag

end Drop

section Magnitude

variable {mag shift : Nat}

/-- The magnitude part of the bits kept, before they are rounded. -/
def truncatedMagnitude (mag shift : Nat) : Nat :=
  (b32Drop mag shift - shift) * 2 ^ 23 + mag / 2 ^ b32Drop mag shift

theorem significand_of_truncated (mag shift : Nat) :
    b32Drop mag shift - shift = 0 ∨ 2 ^ 23 ≤ mag / 2 ^ b32Drop mag shift := by
  have := le_div_b32Drop (mag := mag) (shift := shift)
  tauto

theorem two_pow_b32Drop (mag shift : Nat) : 2 ^ (b32Drop mag shift - shift) * 2 ^ shift = 2 ^ b32Drop mag shift := by
  rw [← pow_add, Nat.sub_add_cancel (le_b32Drop mag shift)]

/-- The truncated part's value is the magnitude without the dropped bits. -/
theorem magnitudeUnits_truncated (mag shift : Nat) :
    magnitudeUnits (truncatedMagnitude mag shift) * 2 ^ shift =
      mag / 2 ^ b32Drop mag shift * 2 ^ b32Drop mag shift := by
  rw [truncatedMagnitude, magnitudeUnits_significand (significand_of_truncated mag shift)
    (div_b32Drop_lt mag shift).le, mul_assoc, two_pow_b32Drop]

/-- The next part's value is one unit of the last bit kept above it. -/
theorem magnitudeUnits_truncated_succ (mag shift : Nat) :
    magnitudeUnits (truncatedMagnitude mag shift + 1) * 2 ^ shift =
      mag / 2 ^ b32Drop mag shift * 2 ^ b32Drop mag shift + 2 ^ b32Drop mag shift := by
  have hnormal := significand_of_truncated mag shift
  rw [truncatedMagnitude, Nat.add_assoc, magnitudeUnits_significand (by omega) (div_b32Drop_lt mag shift), mul_assoc,
    two_pow_b32Drop, Nat.succ_mul]

/-- The truncated part's value is not above the magnitude. -/
theorem magnitudeUnits_truncated_le (mag shift : Nat) :
    magnitudeUnits (truncatedMagnitude mag shift) * 2 ^ shift ≤ mag := by
  rw [magnitudeUnits_truncated]
  exact Nat.div_mul_le_self _ _

/-- The next part's value is above the magnitude. -/
theorem lt_magnitudeUnits_truncated_succ (mag shift : Nat) :
    mag < magnitudeUnits (truncatedMagnitude mag shift + 1) * 2 ^ shift := by
  rw [magnitudeUnits_truncated_succ, ← Nat.succ_mul]
  exact Nat.lt_mul_of_div_lt (Nat.lt_succ_self _) (Nat.two_pow_pos _)

/-- The rounded magnitude part, whatever its exponent. -/
def roundedMagnitude (mag shift : Nat) : Nat :=
  (b32Drop mag shift - shift) * 2 ^ 23 + roundEven mag (b32Drop mag shift)

/-- Twice the midpoint of the two parts the magnitude lies between. -/
def doubledMidpoint (mag shift : Nat) : Nat :=
  magnitudeUnits (truncatedMagnitude mag shift) * 2 ^ shift +
    magnitudeUnits (truncatedMagnitude mag shift + 1) * 2 ^ shift

/-- Rounding takes the nearer of the two parts the magnitude lies between, at the midpoint the even one. -/
theorem roundedMagnitude_cases (mag shift : Nat) :
    (roundedMagnitude mag shift = truncatedMagnitude mag shift ∧ 2 * mag ≤ doubledMidpoint mag shift ∨
      roundedMagnitude mag shift = truncatedMagnitude mag shift + 1 ∧ doubledMidpoint mag shift ≤ 2 * mag) ∧
      (2 * mag = doubledMidpoint mag shift → roundedMagnitude mag shift % 2 = 0) := by
  have hsum := Nat.div_add_mod' mag (2 ^ b32Drop mag shift)
  rw [doubledMidpoint, magnitudeUnits_truncated, magnitudeUnits_truncated_succ]
  unfold roundedMagnitude truncatedMagnitude
  rcases roundEven_cases mag (b32Drop mag shift) with ⟨hround, hhalf, htie⟩ | ⟨hround, hhalf, htie⟩
  · exact ⟨.inl ⟨by rw [hround], by omega⟩, by omega⟩
  · exact ⟨.inr ⟨by rw [hround, Nat.add_assoc], by omega⟩, by omega⟩

theorem magnitudeUnits_infinity : magnitudeUnits b32Infinity = 2 ^ 24 * 2 ^ 253 :=
  magnitudeUnits_significand (d := 253) (q := 2 ^ 24) (by omega) le_rfl

theorem magnitudeUnits_pred_infinity : magnitudeUnits (b32Infinity - 1) = (2 ^ 24 - 1) * 2 ^ 253 :=
  magnitudeUnits_significand (d := 253) (q := 2 ^ 24 - 1) (by omega) (by omega)

/-- A magnitude below `2^128 - 2^103` does not overflow (41_fft_peak.md R150, R151). -/
theorem roundedMagnitude_lt (h : mag < (2 ^ 25 - 1) * 2 ^ (252 + shift)) :
    roundedMagnitude mag shift < b32Infinity := by
  rw [pow_add, ← mul_assoc] at h
  obtain ⟨⟨hround, -⟩ | ⟨hround, hhalf⟩, -⟩ := roundedMagnitude_cases mag shift
  · have hle := magnitudeUnits_truncated_le mag shift
    rw [hround, ← magnitudeUnits_lt_iff, magnitudeUnits_infinity]
    refine Nat.lt_of_mul_lt_mul_right (a := 2 ^ shift) (hle.trans_lt (h.trans ?_))
    exact Nat.mul_lt_mul_of_pos_right (by omega) (Nat.two_pow_pos shift)
  · rw [hround]
    by_contra hover
    have hupper := magnitudeUnits_strictMono.monotone (not_lt.1 hover)
    have hlower : magnitudeUnits (b32Infinity - 1) ≤ magnitudeUnits (truncatedMagnitude mag shift) :=
      magnitudeUnits_strictMono.monotone (by omega)
    rw [magnitudeUnits_infinity] at hupper
    rw [magnitudeUnits_pred_infinity] at hlower
    have hsum := Nat.mul_le_mul_right (2 ^ shift) (Nat.add_le_add hlower hupper)
    rw [doubledMidpoint, ← add_mul] at hhalf
    omega

/-- Where nothing overflows the rounded part is the result. -/
theorem b32RoundMagnitude_eq (h : roundedMagnitude mag shift < b32Infinity) :
    b32RoundMagnitude mag shift = roundedMagnitude mag shift :=
  Nat.min_eq_left h.le

/-- A magnitude whose dropped bits are 0 is represented exactly. -/
theorem magnitudeUnits_rounded_of_dvd (h : 2 ^ b32Drop mag shift ∣ mag) :
    magnitudeUnits (roundedMagnitude mag shift) * 2 ^ shift = mag := by
  rw [roundedMagnitude, roundEven_of_dvd h, ← truncatedMagnitude, magnitudeUnits_truncated, Nat.div_mul_cancel h]

/-- No signed value of a magnitude part is nearer to the magnitude than the rounded one, and another as near leaves it
the even one (41_fft_peak.md R151). -/
theorem roundedMagnitude_nearest (mag shift : Nat) {w : Int} {m : Nat} (hw : w.natAbs = magnitudeUnits m) :
    (magnitudeUnits (roundedMagnitude mag shift) * 2 ^ shift - mag : Int).natAbs ≤ (w * 2 ^ shift - mag).natAbs ∧
      ((magnitudeUnits (roundedMagnitude mag shift) * 2 ^ shift - mag : Int).natAbs = (w * 2 ^ shift - mag).natAbs →
        w ≠ magnitudeUnits (roundedMagnitude mag shift) → roundedMagnitude mag shift % 2 = 0) := by
  have hlower := magnitudeUnits_truncated_le mag shift
  have hupper := lt_magnitudeUnits_truncated_succ mag shift
  have hpos : (0 : Int) < 2 ^ shift := by positivity
  have hgap : w * 2 ^ shift ≤ magnitudeUnits (truncatedMagnitude mag shift) * 2 ^ shift ∨
      magnitudeUnits (truncatedMagnitude mag shift + 1) * 2 ^ shift ≤ w * 2 ^ shift := by
    rw [mul_le_mul_iff_left₀ hpos, mul_le_mul_iff_left₀ hpos]
    rcases Nat.lt_or_ge (truncatedMagnitude mag shift) m with hlt | hge
    · have hm := magnitudeUnits_strictMono.monotone (show truncatedMagnitude mag shift + 1 ≤ m from hlt)
      omega
    · have hm := magnitudeUnits_strictMono.monotone hge
      omega
  have hinj (n : Nat) : w * 2 ^ shift = magnitudeUnits n * 2 ^ shift → w = magnitudeUnits n :=
    fun h => mul_right_cancel₀ hpos.ne' h
  obtain ⟨hround, heven⟩ := roundedMagnitude_cases mag shift
  unfold doubledMidpoint at hround heven
  rcases hround with ⟨hround, hhalf⟩ | ⟨hround, hhalf⟩ <;> rw [hround] at heven ⊢ <;> zify at hlower hupper hhalf heven
  · have hsame := hinj (truncatedMagnitude mag shift)
    omega
  · have hsame := hinj (truncatedMagnitude mag shift + 1)
    omega

end Magnitude

end Sys2Proof
end

section
/-! SUPPORT. The laws of the default number format (41_fft_peak.md R150 to R152): each operation on finite patterns is
its exact result, rounded once. -/

namespace Sys2Proof.Machine

variable {a b : FloatVal}

section Conversion

theorem finitePattern_pattern {n : Bool} {m : Nat} (hm : m < b32Infinity) : FinitePattern (b32Pattern n m) := by
  have hlt := hm.trans b32Infinity_lt
  exact ⟨b32Pattern_lt hlt, b32IsFinite_iff.2 ((b32Magnitude_pattern hlt).trans_lt hm)⟩

/-- A sample has few enough bits for the format to hold it exactly. -/
theorem two_pow_b32Drop_dvd_sample {v : Nat} (hv : v ≤ 65535) : 2 ^ b32Drop (v * 2 ^ 149) 0 ∣ v * 2 ^ 149 := by
  refine Dvd.dvd.mul_left (pow_dvd_pow 2 ?_) v
  have hlog : Nat.log2 (v * 2 ^ 149) ≤ Nat.log2 (65535 * 2 ^ 149) := by
    simp only [Nat.log2_eq_log_two]
    exact Nat.log_mono_right (Nat.mul_le_mul_right _ hv)
  have htop : Nat.log2 (65535 * 2 ^ 149) < 165 := (Nat.log2_lt (by omega)).2 (by omega)
  unfold b32Drop
  omega

/-- Settles O40: a sample keeps all its bits, and the order of the patterns is the order of their values. -/
theorem conversionIsExactAndComparisonIsReal : Obligations.ConversionIsExactAndComparisonIsReal := by
  refine ⟨fun v hv => ?_, fun a b ha hb => ?_, fun a b => b32Gt_nan⟩
  · have hlt : roundedMagnitude (v * 2 ^ 149) 0 < b32Infinity :=
      roundedMagnitude_lt ((Nat.mul_le_mul_right _ hv).trans_lt (by omega))
    have hunits := magnitudeUnits_rounded_of_dvd (two_pow_b32Drop_dvd_sample hv)
    have hcode : FloatFormat.binary32.ofNat v = b32Pattern false (roundedMagnitude (v * 2 ^ 149) 0) :=
      b32RoundMagnitude_eq hlt
    rw [hcode, b32Value_pattern (hlt.trans b32Infinity_lt)]
    refine ⟨finitePattern_pattern hlt, ?_⟩
    zify at hunits
    simpa using hunits
  · exact (b32Gt_iff (b32IsNaN_of_finite ha.2) (b32IsNaN_of_finite hb.2)).trans b32Order_lt_iff

end Conversion

section Rounding

/-- A signed magnitude in range, rounded once, is its rounding (41_fft_peak.md R151). -/
theorem isRounding_pattern {n : Bool} {mag shift : Nat} {units : Int} (hunits : units = if n then -(mag : Int) else mag)
    (h : InRange units shift) : IsRounding units shift (b32Pattern n (b32RoundMagnitude mag shift)) := by
  have hmag : units.natAbs = mag := by
    rw [hunits]
    split <;> omega
  have hlt : roundedMagnitude mag shift < b32Infinity := roundedMagnitude_lt (hmag ▸ h)
  rw [b32RoundMagnitude_eq hlt]
  refine ⟨finitePattern_pattern hlt, fun c hc => ?_⟩
  rw [b32Value_pattern (hlt.trans b32Infinity_lt)]
  have hc := natAbs_b32Value c
  rw [b32Units_eq] at hc
  cases n with
  | false =>
    obtain rfl := hunits
    exact roundedMagnitude_nearest mag shift hc
  | true =>
    obtain rfl := hunits
    have hmirror (v : Int) : (v * 2 ^ shift - -(mag : Int)).natAbs = (-v * 2 ^ shift - mag).natAbs := by
      rw [← Int.natAbs_neg]
      ring_nf
    have hnearest := roundedMagnitude_nearest mag shift ((Int.natAbs_neg _).trans hc)
    have heven : b32Pattern true (roundedMagnitude mag shift) % 2 = roundedMagnitude mag shift % 2 :=
      Nat.mul_add_mod 2 (2 ^ 30) _
    rw [if_pos rfl, if_pos rfl, hmirror, hmirror, neg_neg, heven]
    exact ⟨hnearest.1, fun htie hne => hnearest.2 htie fun h => hne (neg_eq_iff_eq_neg.1 h)⟩

end Rounding

section Arithmetic

theorem finitePattern_negate (hb : FinitePattern b) : FinitePattern (b32Negate b) :=
  finitePattern_pattern (b32IsFinite_iff.1 hb.2)

theorem b32Sign_negate (b : FloatVal) : b32Sign (b32Negate b) = !b32Sign b :=
  b32Sign_pattern (b32Magnitude_lt b)

theorem b32Value_negate (b : FloatVal) : b32Value (b32Negate b) = -b32Value b := by
  rw [b32Negate, b32Value_pattern (b32Magnitude_lt b), ← b32Units_eq, b32Value]
  cases b32Sign b <;> simp

theorem b32Add_finite (ha : FinitePattern a) (hb : FinitePattern b) : b32Add a b = b32AddFinite a b := by
  simp [b32Add, b32IsNaN_of_finite ha.2, b32IsNaN_of_finite hb.2, b32IsInf_of_finite ha.2, b32IsInf_of_finite hb.2]

/-- A difference is the sum with the sign of the second operand inverted (41_fft_peak.md R151). -/
theorem b32Sub_finite (ha : FinitePattern a) (hb : FinitePattern b) : b32Sub a b = b32AddFinite a (b32Negate b) := by
  rw [b32Sub, b32IsNaN_of_finite ha.2, b32IsNaN_of_finite hb.2, Bool.or_self, if_neg Bool.false_ne_true,
    b32Add_finite ha (finitePattern_negate hb)]

theorem b32Mul_finite (ha : FinitePattern a) (hb : FinitePattern b) :
    b32Mul a b = b32Pattern (b32Sign a != b32Sign b) (b32RoundMagnitude (b32Units a * b32Units b) 149) := by
  simp [b32Mul, b32IsNaN_of_finite ha.2, b32IsNaN_of_finite hb.2, b32IsInf_of_finite ha.2, b32IsInf_of_finite hb.2]

theorem b32RoundMagnitude_zero (shift : Nat) : b32RoundMagnitude 0 shift = 0 := by
  simp [b32RoundMagnitude, b32Drop, roundEven]

/-- The exact sum is rounded once (41_fft_peak.md R151). -/
theorem isRounding_addFinite (h : InRange (b32Value a + b32Value b) 0) :
    IsRounding (b32Value a + b32Value b) 0 (b32AddFinite a b) := by
  simp only [b32AddFinite]
  split
  next hzero =>
    rw [← b32RoundMagnitude_zero 0]
    exact isRounding_pattern (by simp [hzero]) h
  next hne =>
    refine isRounding_pattern ?_ h
    simp only [decide_eq_true_eq]
    split <;> omega

/-- An exact zero sum whose operands are not both negative is `+0.0` (41_fft_peak.md R151). -/
theorem b32AddFinite_zero (hsum : b32Value a + b32Value b = 0) (hsign : b32Sign a ≠ b32Sign b) :
    b32AddFinite a b = 0 := by
  have hboth : (b32Sign a && b32Sign b) = false := Bool.eq_false_iff.2 fun h =>
    hsign ((Bool.and_eq_true_iff.1 h).1.trans (Bool.and_eq_true_iff.1 h).2.symm)
  simp [b32AddFinite, hsum, hboth, b32Pattern]

/-- Settles O41: a difference is a sum, and a sum is the exact one rounded once. -/
theorem sumsRoundOnce : Obligations.SumsRoundOnce := by
  intro a b ha hb
  refine ⟨fun h => ?_, fun h => ?_, fun hsum hsign => ?_, ?_⟩
  · rw [FloatFormat.add, b32Add_finite ha hb]
    exact isRounding_addFinite h
  · rw [FloatFormat.sub, b32Sub_finite ha hb]
    rw [sub_eq_add_neg, ← b32Value_negate] at h ⊢
    exact isRounding_addFinite h
  · rw [FloatFormat.add, b32Add_finite ha hb]
    exact b32AddFinite_zero hsum hsign
  · rw [FloatFormat.sub, b32Sub_finite ha ha]
    refine b32AddFinite_zero ?_ ?_
    · rw [b32Value_negate, add_neg_cancel]
    · rw [b32Sign_negate]
      exact (Bool.not_ne_self _).symm

/-- The exact product has the product of the magnitudes, and is negative where the signs differ. -/
theorem b32Value_mul (a b : FloatVal) : b32Value a * b32Value b =
    if b32Sign a != b32Sign b then -((b32Units a * b32Units b : Nat) : Int) else (b32Units a * b32Units b : Nat) := by
  simp only [b32Value]
  cases b32Sign a <;> cases b32Sign b <;> simp

theorem b32Units_eq_zero_iff : b32Units a = 0 ↔ b32Value a = 0 := by
  rw [← natAbs_b32Value, Int.natAbs_eq_zero]

/-- Settles O42: the product of the magnitudes is rounded once and takes the sign of the product. -/
theorem productsRoundOnce : Obligations.ProductsRoundOnce := by
  intro a b ha hb
  rw [FloatFormat.mul, b32Mul_finite ha hb]
  refine ⟨isRounding_pattern (b32Value_mul a b), fun hzero => ?_⟩
  have hunits : b32Units a * b32Units b = 0 :=
    Nat.mul_eq_zero.2 (hzero.imp b32Units_eq_zero_iff.2 b32Units_eq_zero_iff.2)
  rw [hunits, b32RoundMagnitude_zero]
  cases b32Sign a <;> cases b32Sign b <;> rfl

end Arithmetic

end Sys2Proof.Machine
end

section
/-! SUPPORT. The analyzer's operations one by one (41_fft_peak.md R156 to R161): what each leaves, and the walk of the
reversed index in closed form (R157). -/

namespace Sys2Proof.Machine

variable {s t : State} {p : Phase}

/-- A foreground operation runs in its own phase while no handler is pending or active (10_state.md R22). -/
theorem guarded_foreground (hguard : s.seq = p ∧ s.Idle) (b : Result) : guarded p.op s b = b := by
  refine guarded_enabled ?_
  cases p <;> exact foregroundEnabled_iff.2 hguard

section Load

/-- Where the source holds a sample `FFT.LOAD` moves it into the frame (41_fft_peak.md R156). -/
theorem exec_fftLoad (hguard : s.seq = .load ∧ s.Idle) {v : BitVec 16} (hread : s.readSource s.fi.toNat = .ok v) :
    exec .fftLoad s = .next (if s.fi.toNat = 1023
      then { s.writeFrame s.fi.toNat (s.fmt.ofNat v.toNat) s.fmt.zero with fi := 0, fj := 0, seq := .rev }
      else { s.writeFrame s.fi.toNat (s.fmt.ofNat v.toNat) s.fmt.zero with fi := s.fi + 1 }) := by
  refine (guarded_foreground (p := .load) hguard _).trans ?_
  rw [hread]
  rfl

/-- Settles O30: the source of either policy holds the sample, and one element is written. -/
theorem loadConvertsOneSample : Obligations.LoadConvertsOneSample := by
  refine ⟨rfl, fun s => ⟨fun hguard v hracy hsnap => ?_, exec_refused_of_enabled_iff foregroundEnabled_iff⟩⟩
  have hread : s.readSource s.fi.toNat = .ok v := by
    unfold State.readSource
    split
    · exact hracy ‹_›
    · exact hsnap ‹_›
  have hlt := readSource_lt hread
  have hframe (k : Nat) := And.intro
    (readRe_writeFrame (s := s) (i := k) hlt (s.fmt.ofNat v.toNat) s.fmt.zero)
    (readIm_writeFrame (s := s) (i := k) hlt (s.fmt.ofNat v.toNat) s.fmt.zero)
  have hexec := exec_fftLoad hguard hread
  split at hexec
  next hlast => exact ⟨_, hexec, rfl, fun _ => ⟨rfl, rfl, rfl⟩, fun hne => absurd hlast hne, hframe⟩
  next hne =>
    exact ⟨_, hexec, rfl, fun hlast => absurd hlast hne, fun _ => ⟨by bv_omega, rfl, hguard.1⟩, hframe⟩

end Load

section Walk

/-- The masks of the walk over `n` bits, highest first (41_fft_peak.md R157). -/
def walkMasks : Nat → List Nat
  | 0 => []
  | n + 1 => 2 ^ n :: walkMasks n

theorem walkNext_eq (j : Nat) : walkNext j = walkLoop (walkMasks 10) j := rfl

/-- The loop takes away the `z` leading ones and sets the zero below them: `2^(m+1) * (2^z - 1) + r` are `z` ones, a
zero and `m` bits `r` (41_fft_peak.md R157). -/
theorem walkLoop_leadingOnes {m r : Nat} (hr : r < 2 ^ m) (z : Nat) :
    walkLoop (walkMasks (m + 1 + z)) (2 ^ (m + 1) * (2 ^ z - 1) + r) = some (2 ^ m + r) := by
  induction z with
  | zero =>
    simp only [walkMasks, walkLoop, pow_zero, Nat.sub_self, Nat.mul_zero, Nat.zero_add]
    rw [if_neg (not_le.2 hr), Nat.add_comm]
  | succ z ih =>
    have hones : 2 ^ (m + 1) * (2 ^ (z + 1) - 1) = 2 ^ (m + 1 + z) + 2 ^ (m + 1) * (2 ^ z - 1) := by
      have hpos := Nat.one_le_two_pow (n := z)
      rw [pow_add _ _ z, ← Nat.mul_add]
      congr 1
      omega
    rw [← Nat.add_assoc (m + 1), walkMasks, walkLoop, hones, Nat.add_assoc (2 ^ (m + 1 + z)),
      if_pos (Nat.le_add_right _ _), Nat.add_sub_cancel_left, ih]

theorem walkNext_leadingOnes {z j : Nat} (hz : z ≤ 9) (hj : j / 2 ^ (9 - z) = 2 ^ (z + 1) - 2) :
    walkNext j = some (2 ^ (9 - z) + j % 2 ^ (9 - z)) := by
  have hloop := walkLoop_leadingOnes (Nat.mod_lt j (Nat.two_pow_pos (9 - z))) z
  have hbits : 2 ^ (9 - z + 1) * (2 ^ z - 1) + j % 2 ^ (9 - z) = j := by
    have hdouble : 2 * (2 ^ z - 1) = 2 ^ (z + 1) - 2 := by omega
    rw [pow_succ, Nat.mul_assoc, hdouble, ← hj]
    exact Nat.div_add_mod _ _
  have hlen : 9 - z + 1 + z = 10 := by omega
  rwa [hbits, hlen, ← walkNext_eq] at hloop

/-- The state the swap of two elements leaves (41_fft_peak.md R157). -/
def State.swapped (s : State) (xr xi yr yi : FloatVal) : State :=
  (s.writeFrame s.fi.toNat yr yi).writeFrame s.fj.toNat xr xi

theorem exec_fftRev_keep (hguard : s.seq = .rev ∧ s.Idle) (hle : ¬s.fi.toNat < s.fj.toNat) :
    exec .fftRev s = s.walkStep :=
  (guarded_foreground (p := .rev) hguard _).trans (if_neg hle)

theorem exec_fftRev_swap (hguard : s.seq = .rev ∧ s.Idle) (hlt : s.fi.toNat < s.fj.toNat) {xr xi yr yi : FloatVal}
    (hx : s.FrameAt s.fi.toNat xr xi) (hy : s.FrameAt s.fj.toNat yr yi) :
    exec .fftRev s = (s.swapped xr xi yr yi).walkStep := by
  refine (guarded_foreground (p := .rev) hguard _).trans ((if_pos hlt).trans ?_)
  rw [withFrame_ok hx.1 hx.2, withFrame_ok hy.1 hy.2]
  rfl

/-- What the walk leaves whatever the swap left in the frame: that frame, the next index, and the next step or the first
stage. -/
theorem walkStep_spec (hseq : s.seq = .rev) (hfi : s.fi.toNat ≤ 1022) {j : Nat} (hwalk : walkNext s.fj.toNat = some j)
    (hj : j < 1024) (re im : Memory FloatVal) :
    ∃ t, State.walkStep { s with re := re, im := im } = .next t ∧
      t = { s with re := t.re, im := t.im, fi := t.fi, fj := t.fj, fstg := t.fstg, seq := t.seq } ∧
      t.fj.toNat = j ∧ (s.fi.toNat = 1022 → t.fi = s.fi ∧ t.fstg = 1 ∧ t.seq = .stg) ∧
      (s.fi.toNat ≠ 1022 → t.fi.toNat = s.fi.toNat + 1 ∧ t.fstg = s.fstg ∧ t.seq = .rev) ∧ t.re = re ∧ t.im = im := by
  have hfj : (BitVec.ofNat 10 j).toNat = j := by
    rw [BitVec.toNat_ofNat, Nat.mod_eq_of_lt hj]
  have hstep := walkStep_some (s := { s with re := re, im := im }) hwalk
  split at hstep
  next hlast =>
    exact ⟨_, hstep, rfl, hfj, fun _ => ⟨rfl, rfl, rfl⟩, fun hne => absurd hlast hne, rfl, rfl⟩
  next hne =>
    have hnext : (s.fi + 1).toNat = s.fi.toNat + 1 := by bv_omega
    exact ⟨_, hstep, rfl, hfj, fun hlast => absurd hlast hne, fun _ => ⟨hnext, rfl, hseq⟩, rfl, rfl⟩

/-- Reading the frame after the swap. -/
theorem frame_swapped (hlt : s.fi.toNat < s.fj.toNat) (xr xi yr yi : FloatVal) (k : Nat) :
    (s.swapped xr xi yr yi).readRe k =
        (if k = s.fi.toNat then .ok yr else if k = s.fj.toNat then .ok xr else s.readRe k) ∧
      (s.swapped xr xi yr yi).readIm k =
        if k = s.fi.toNat then .ok yi else if k = s.fj.toNat then .ok xi else s.readIm k := by
  have hfj := s.fj.isLt
  have hfi : s.fi.toNat < 1024 := by omega
  rw [State.swapped, readRe_writeFrame hfj, readIm_writeFrame hfj, readRe_writeFrame hfi, readIm_writeFrame hfi]
  by_cases hk : k = s.fi.toNat
  · simp [hk, hlt.ne]
  · simp [hk]

/-- One step of the walk: where the counters make a swap two elements change places, and the walk goes on from there
(41_fft_peak.md R157). -/
theorem fftRev_spec (hguard : s.seq = .rev ∧ s.Idle) (hfi : s.fi.toNat ≤ 1022) {j : Nat}
    (hwalk : walkNext s.fj.toNat = some j) (hj : j < 1024) {xr xi yr yi : FloatVal}
    (hread : s.fi.toNat < s.fj.toNat → s.FrameAt s.fi.toNat xr xi ∧ s.FrameAt s.fj.toNat yr yi) :
    ∃ t, exec .fftRev s = .next t ∧
      t = { s with re := t.re, im := t.im, fi := t.fi, fj := t.fj, fstg := t.fstg, seq := t.seq } ∧
      t.fj.toNat = j ∧ (s.fi.toNat = 1022 → t.fi = s.fi ∧ t.fstg = 1 ∧ t.seq = .stg) ∧
      (s.fi.toNat ≠ 1022 → t.fi.toNat = s.fi.toNat + 1 ∧ t.fstg = s.fstg ∧ t.seq = .rev) ∧
      (¬s.fi.toNat < s.fj.toNat → t.re = s.re ∧ t.im = s.im) ∧
      (s.fi.toNat < s.fj.toNat → ∀ k,
        t.readRe k = (if k = s.fi.toNat then .ok yr else if k = s.fj.toNat then .ok xr else s.readRe k) ∧
        t.readIm k = if k = s.fi.toNat then .ok yi else if k = s.fj.toNat then .ok xi else s.readIm k) := by
  by_cases hlt : s.fi.toNat < s.fj.toNat
  · obtain ⟨hx, hy⟩ := hread hlt
    have hexec := exec_fftRev_swap hguard hlt hx hy
    obtain ⟨t, hstep, hstate, hfj, hlast, hnext, hre, him⟩ := walkStep_spec hguard.1 hfi hwalk hj
      (s.swapped xr xi yr yi).re (s.swapped xr xi yr yi).im
    refine ⟨t, hexec.trans hstep, hstate, hfj, hlast, hnext, fun h => absurd hlt h, fun _ k => ?_⟩
    rw [State.readRe, State.readIm, hre, him]
    exact frame_swapped hlt xr xi yr yi k
  · obtain ⟨t, hstep, hstate, hfj, hlast, hnext, hre, him⟩ := walkStep_spec hguard.1 hfi hwalk hj s.re s.im
    exact ⟨t, (exec_fftRev_keep hguard hlt).trans hstep, hstate, hfj, hlast, hnext, fun _ => ⟨hre, him⟩,
      fun h => absurd h hlt⟩

/-- Settles O31: the walk's next index is the one without the leading ones and with the bit below them. -/
theorem reversalStepSwapsAndWalks : Obligations.ReversalStepSwapsAndWalks := by
  refine ⟨rfl, fun s => ⟨fun hguard hfi z hz hones xr xi yr yi hread => ?_,
    exec_refused_of_enabled_iff foregroundEnabled_iff⟩⟩
  have hj : 2 ^ (9 - z) + s.fj.toNat % 2 ^ (9 - z) < 1024 := by
    have hpow := Nat.pow_le_pow_right (n := 2) (by decide) (Nat.sub_le 9 z)
    have hmod := Nat.mod_lt s.fj.toNat (Nat.two_pow_pos (9 - z))
    omega
  refine fftRev_spec hguard hfi (walkNext_leadingOnes hz hones) hj fun hlt => ?_
  obtain ⟨hxr, hxi, hyr, hyi⟩ := hread hlt
  exact ⟨⟨hxr, hxi⟩, hyr, hyi⟩

end Walk

section Reversal

/-- Where the element of index `k` was before the first `n` steps of the walk: a pair is exchanged once the counter has
passed the lower of its two indices (41_fft_peak.md R158). -/
def reversedBelow (n k : Nat) : Nat :=
  if k < n ∨ rev10 k < n then rev10 k else k

/-- The step at counter `n` exchanges `n` and its reversal, if it comes to that pair at the lower index. -/
theorem reversedBelow_succ {n k : Nat} (hn : n < 1024) (hk : k < 1024) : reversedBelow (n + 1) k =
    reversedBelow n (if n < rev10 n then if k = n then rev10 n else if k = rev10 n then n else k else k) := by
  have hinv := rev10_rev10 n hn
  unfold reversedBelow
  rcases eq_or_ne k n with rfl | hkn
  · rw [if_pos rfl]
    split_ifs <;> omega
  · rcases eq_or_ne k (rev10 n) with rfl | hkr
    · rw [if_neg hkn, if_pos rfl]
      split_ifs <;> omega
    · have hne : rev10 k ≠ n := fun h => hkr (h ▸ (rev10_rev10 k hk).symm)
      have hiff : k < n + 1 ∨ rev10 k < n + 1 ↔ k < n ∨ rev10 k < n := by omega
      rw [if_neg hkn, if_neg hkr, ite_self, if_congr hiff rfl rfl]

/-- The frame of `t` is that of `s` after `n` steps of the walk. -/
def State.ReversedFrame (t s : State) (n : Nat) : Prop :=
  ∀ k, k < 1024 → t.readRe k = s.readRe (reversedBelow n k) ∧ t.readIm k = s.readIm (reversedBelow n k)

/-- `t` is in the walk that began in `s`, before its step at counter `n`. -/
structure State.ReversedUpTo (t s : State) (n : Nat) : Prop where
  seq : t.seq = .rev
  idle : t.Idle
  counter : t.fi.toNat = n
  index : t.fj.toNat = rev10 n
  frame : t.ReversedFrame s n

/-- The walk moves elements of the frame and keeps it full. -/
theorem State.ReversedFrame.full {n : Nat} (h : t.ReversedFrame s n) (hfull : s.FrameFull) : t.FrameFull := by
  intro k hk
  have hlt : reversedBelow n k < 1024 := by
    unfold reversedBelow
    split
    · exact rev10_lt k hk
    · exact hk
  obtain ⟨hre, him⟩ := h k hk
  rw [hre, him]
  exact hfull _ hlt

/-- The step at counter `n` exchanges the pair that begins there, and the index stays the counter's reversal. -/
theorem State.ReversedUpTo.step {n : Nat} (h : t.ReversedUpTo s n) (hfull : s.FrameFull) (hn : n ≤ 1022) :
    ∃ u, exec .fftRev t = .next u ∧ u.Idle ∧ u.fj.toNat = rev10 (n + 1) ∧ (n = 1022 → u.fstg = 1 ∧ u.seq = .stg) ∧
      (n ≠ 1022 → u.fi.toNat = n + 1 ∧ u.seq = .rev) ∧ u.ReversedFrame s (n + 1) := by
  obtain ⟨hseq, hidle, hcount, hindex, hframe⟩ := h
  have hlt := rev10_lt n (by omega)
  obtain ⟨xr, xi, hx⟩ := hframe.full hfull n (by omega)
  obtain ⟨yr, yi, hy⟩ := hframe.full hfull (rev10 n) hlt
  have hwalk : walkNext t.fj.toNat = some (rev10 (n + 1)) :=
    (congrArg walkNext hindex).trans (walkNext_rev10 n (by omega))
  obtain ⟨u, hexec, hstate, hfj, hlast, hnext, hkeep, hswap⟩ :=
    fftRev_spec ⟨hseq, hidle⟩ (hcount ▸ hn) hwalk (rev10_lt _ (by omega)) fun _ => by
      rw [hcount, hindex]
      exact ⟨hx, hy⟩
  rw [hcount] at hlast hnext hkeep hswap
  rw [hindex] at hkeep hswap
  refine ⟨u, hexec, hstate.symm.subst (motive := State.Idle) hidle, hfj, fun h => (hlast h).2, fun h => ?_,
    fun k hk => ?_⟩
  · obtain ⟨hfi, -, hseq'⟩ := hnext h
    exact ⟨hfi, hseq'⟩
  rw [reversedBelow_succ (by omega) hk]
  split
  next hswapped =>
    obtain ⟨hre, him⟩ := hswap hswapped k
    rw [hre, him]
    split_ifs
    · exact ⟨hy.1.symm.trans (hframe _ hlt).1, hy.2.symm.trans (hframe _ hlt).2⟩
    · exact ⟨hx.1.symm.trans (hframe n (by omega)).1, hx.2.symm.trans (hframe n (by omega)).2⟩
    · exact hframe k hk
  next hkept =>
    obtain ⟨hre, him⟩ := hkeep hkept
    simpa only [State.readRe, State.readIm, hre, him] using hframe k hk

theorem runOperations_fftRev (h : s.ReversedUpTo s 0) (hfull : s.FrameFull) {n : Nat} (hn : n ≤ 1022) :
    ∃ t, runOperations (List.replicate n .fftRev) s = .next t ∧ t.ReversedUpTo s n := by
  induction n with
  | zero => exact ⟨s, rfl, h⟩
  | succ n ih =>
    obtain ⟨t, hrun, ht⟩ := ih (by omega)
    obtain ⟨u, hexec, hidle, hfj, -, hnext, hframe⟩ := ht.step hfull (by omega)
    obtain ⟨hfi, hseq⟩ := hnext (by omega)
    rw [List.replicate_succ', runOperations_append hrun, runOperations_cons hexec]
    exact ⟨u, rfl, hseq, hidle, hfi, hfj, hframe⟩

/-- After the whole walk every index holds the element of its reversal. -/
theorem reversedBelow_all {k : Nat} (hk : k < 1024) : reversedBelow 1023 k = rev10 k := by
  have hlast : rev10 1023 = 1023 := by decide
  rcases eq_or_ne k 1023 with rfl | hne
  · rw [hlast]
    rfl
  · exact if_pos (.inl (by omega))

/-- Settles O32: 1022 steps by induction, and the last one leaves the walk. -/
theorem reversalPhasePermutesTheFrame : Obligations.ReversalPhasePermutesTheFrame := by
  intro s hseq hidle hfi hfj hfull
  have hstart : s.ReversedUpTo s 0 :=
    ⟨hseq, hidle, hfi ▸ rfl, hfj ▸ rfl, fun k _ => by simp [reversedBelow]⟩
  obtain ⟨t, hrun, ht⟩ := runOperations_fftRev hstart hfull le_rfl
  obtain ⟨u, hexec, -, hindex, hlast, -, hframe⟩ := ht.step hfull le_rfl
  obtain ⟨hstg, hphase⟩ := hlast rfl
  refine ⟨u, ?_, hphase, hstg, BitVec.eq_of_toNat_eq hindex, fun k hk => reversedBelow_all hk ▸ hframe k hk⟩
  rw [List.replicate_succ', runOperations_append hrun, runOperations_cons hexec]
  rfl

end Reversal

section Stages

theorem exec_fftStg (hguard : s.seq = .stg ∧ s.Idle) {c d : FloatVal}
    (htw : s.cfg.val.twiddle s.fstg.toNat = some (c, d)) :
    exec .fftStg s = .next { s with
      fhalf := BitVec.ofNat 10 (halfGroup s.fstg.toNat), cRe := c, cIm := d, wRe := s.fmt.one, wIm := s.fmt.zero,
      fj := 0, fgrp := 0, seq := .bfy } := by
  refine (guarded_foreground (p := .stg) hguard _).trans ?_
  rw [htw]

/-- Settles O33: the table has ten entries, so half the group size fits its register. -/
theorem stageSetsUpItsRegisters : Obligations.StageSetsUpItsRegisters := by
  refine ⟨rfl, fun s => ⟨fun hguard c d hlo htw => ?_, exec_refused_of_enabled_iff foregroundEnabled_iff⟩⟩
  refine ⟨_, exec_fftStg hguard ((if_neg (by omega)).trans htw), rfl, ?_⟩
  obtain ⟨hlt, -⟩ := List.getElem?_eq_some_iff.1 htw
  obtain ⟨-, -, -, hlen⟩ := Config_valid_lengths s.cfg.property
  rw [BitVec.toNat_ofNat, halfGroup, Nat.mod_eq_of_lt (Nat.pow_lt_pow_right (by decide) (by omega))]

theorem exec_fftBfy (hguard : s.seq = .bfy ∧ s.Idle) {xr xi yr yi : FloatVal} (hy : s.FrameAt s.bfyUpper yr yi)
    (hx : s.FrameAt s.bfyLower xr xi) :
    exec .fftBfy s = .next { (s.writeFrame s.bfyLower (s.fmt.sub yr (cmulRe s.fmt s.wRe s.wIm xr xi))
          (s.fmt.sub yi (cmulIm s.fmt s.wRe s.wIm xr xi))).writeFrame s.bfyUpper
        (s.fmt.add yr (cmulRe s.fmt s.wRe s.wIm xr xi)) (s.fmt.add yi (cmulIm s.fmt s.wRe s.wIm xr xi)) with
      fgrp := BitVec.ofNat 11 s.bfyNextGroup, seq := if 1024 ≤ s.bfyNextGroup then .twn else .bfy } := by
  refine (guarded_foreground (p := .bfy) hguard _).trans ?_
  rw [withFrame_ok hy.1 hy.2, withFrame_ok hx.1 hx.2]

/-- Settles O34: element `b` is written before element `a`, both from what was read. -/
theorem butterflyCombinesTwoElements : Obligations.ButterflyCombinesTwoElements := by
  refine ⟨rfl, fun s => ⟨?_, exec_refused_of_enabled_iff foregroundEnabled_iff⟩⟩
  intro hguard a b g f xr xi yr yi hxr hxi hyr hyi hg tr ti
  have hx : s.FrameAt s.bfyLower xr xi := ⟨hxr, hxi⟩
  have hy : s.FrameAt s.bfyUpper yr yi := ⟨hyr, hyi⟩
  refine ⟨_, exec_fftBfy hguard hy hx, rfl, ?_, fun hend => if_pos hend, fun hlt => if_neg (not_le.2 hlt), fun k => ?_⟩
  · exact (BitVec.toNat_ofNat _ _).trans (Nat.mod_eq_of_lt (lt_of_le_of_lt hg (by decide)))
  · have hre := readRe_writeFrame (s := s) (i := k) hx.lt (f.sub yr tr) (f.sub yi ti)
    have him := readIm_writeFrame (s := s) (i := k) hx.lt (f.sub yr tr) (f.sub yi ti)
    exact ⟨(readRe_writeFrame hy.lt _ (f.add yi ti)).trans (if_congr .rfl rfl hre),
      (readIm_writeFrame hy.lt (f.add yr tr) _).trans (if_congr .rfl rfl him)⟩

/-- Settles O35: the position, the stage or the phase ends. -/
theorem twiddleRotatesAndMovesOn : Obligations.TwiddleRotatesAndMovesOn := by
  refine ⟨rfl, fun s => ⟨fun hguard => ?_, exec_refused_of_enabled_iff foregroundEnabled_iff⟩⟩
  have hexec := guarded_foreground (p := .twn) hguard
  refine ⟨fun hfj => ?_, fun hfj hstg => ?_, fun hfj hstg => ?_⟩
  · exact (hexec _).trans (congrArg _ (if_pos hfj))
  · exact (hexec _).trans (congrArg _ ((if_neg hfj).trans (if_pos hstg)))
  · exact (hexec _).trans (congrArg _ ((if_neg hfj).trans (if_neg hstg)))

end Stages

end Sys2Proof.Machine
end

section
/-! SUPPORT. The bin-peak detector: its operations one by one (41_fft_peak.md R164 to R166), and the bin the whole
search finds. -/

namespace Sys2Proof.Machine

variable {s t : State}

section Operations

/-- Settles O36: the search's registers are set from element 1. -/
theorem peakSearchStartsAtBinOne : Obligations.PeakSearchStartsAtBinOne :=
  ⟨rfl, fun _ => ⟨fun hguard _ _ hx hy => (guarded_foreground (p := .pki) hguard _).trans (withFrame_ok hx hy),
    exec_refused_of_enabled_iff foregroundEnabled_iff⟩⟩

theorem exec_pkScan_greater (hguard : s.seq = .pks ∧ s.Idle) {x y : FloatVal} (hx : s.FrameAt s.pkK.toNat x y)
    (hgt : s.fmt.gt (mag2 s.fmt x y) s.pkMag = true) : exec .pkScan s = .next { s with
      pkMag := mag2 s.fmt x y, pkBin := s.pkK.setWidth 9, pkK := s.pkK + 1,
      seq := if s.pkK.toNat = 511 then .pkd else .pks } := by
  refine (guarded_foreground (p := .pks) hguard _).trans ((withFrame_ok hx.1 hx.2).trans ?_)
  simp only [hgt, if_true]

theorem exec_pkScan_notGreater (hguard : s.seq = .pks ∧ s.Idle) {x y : FloatVal} (hx : s.FrameAt s.pkK.toNat x y)
    (hgt : s.fmt.gt (mag2 s.fmt x y) s.pkMag = false) : exec .pkScan s = .next { s with
      pkK := s.pkK + 1, seq := if s.pkK.toNat = 511 then .pkd else .pks } := by
  refine (guarded_foreground (p := .pks) hguard _).trans ((withFrame_ok hx.1 hx.2).trans ?_)
  simp only [hgt, Bool.false_eq_true, if_false]

/-- Settles O37: the element's squared magnitude is greater than the best one or it is not, and both go on to the next
bin. -/
theorem peakScanKeepsTheStrictlyGreater : Obligations.PeakScanKeepsTheStrictlyGreater := by
  refine ⟨rfl, fun s => ⟨fun hguard hk x y hx hy => ?_, exec_refused_of_enabled_iff foregroundEnabled_iff⟩⟩
  have hnext : (s.pkK + 1).toNat = s.pkK.toNat + 1 := by bv_omega
  have hbin : (s.pkK.setWidth 9).toNat = s.pkK.toNat := by bv_omega
  intro m
  cases hgt : s.fmt.gt m s.pkMag with
  | true =>
    exact ⟨_, exec_pkScan_greater hguard ⟨hx, hy⟩ hgt, rfl, fun _ => ⟨rfl, hbin⟩, nofun, hnext, fun h => if_pos h,
      fun h => if_neg h⟩
  | false =>
    exact ⟨_, exec_pkScan_notGreater hguard ⟨hx, hy⟩ hgt, rfl, nofun, fun _ => ⟨rfl, rfl⟩, hnext, fun h => if_pos h,
      fun h => if_neg h⟩

/-- Settles O38: the product of every bin fits 32 bits. -/
theorem peakDeliversItsFrequency : Obligations.PeakDeliversItsFrequency := by
  refine ⟨rfl, fun s => ⟨fun hguard => ⟨_, guarded_foreground (p := .pkd) hguard _, rfl, ?_⟩,
    exec_refused_of_enabled_iff foregroundEnabled_iff⟩⟩
  have hlt := s.pkBin.isLt
  exact (BitVec.toNat_ofNat _ _).trans (Nat.mod_eq_of_lt (by unfold binFrequency; omega))

end Operations

section Search

/-- `b` is the lowest of the bins 1 to `n` at which `f` is largest. -/
structure IsLowestMax (f : Nat → Int) (n b : Nat) : Prop where
  pos : 1 ≤ b
  le : b ≤ n
  max : ∀ k, 1 ≤ k → k ≤ n → f k ≤ f b
  lowest : ∀ k, 1 ≤ k → k < b → f k < f b

variable {f : Nat → Int} {n b : Nat}

theorem isLowestMax_one (f : Nat → Int) : IsLowestMax f 1 1 where
  pos := le_rfl
  le := le_rfl
  max k hlo hhi := by rw [le_antisymm hhi hlo]
  lowest k hlo hlt := absurd hlt (not_lt.2 hlo)

/-- A next bin strictly greater than the best is the new lowest maximum. -/
theorem IsLowestMax.replace (h : IsLowestMax f n b) (hgt : f b < f (n + 1)) : IsLowestMax f (n + 1) (n + 1) where
  pos := Nat.succ_pos n
  le := le_rfl
  max k hlo hhi := by
    rcases Nat.le_succ_iff.1 hhi with hk | rfl
    · exact (h.max k hlo hk).trans hgt.le
    · exact le_rfl
  lowest k hlo hlt := (h.max k hlo (Nat.le_of_lt_succ hlt)).trans_lt hgt

/-- A next bin not greater than the best leaves it the lowest maximum. -/
theorem IsLowestMax.keep (h : IsLowestMax f n b) (hle : f (n + 1) ≤ f b) : IsLowestMax f (n + 1) b where
  pos := h.pos
  le := h.le.trans (Nat.le_succ n)
  max k hlo hhi := by
    rcases Nat.le_succ_iff.1 hhi with hk | rfl
    · exact h.max k hlo hk
    · exact hle
  lowest := h.lowest

/-- The search can go on from `s`: no handler is in its way, and `m k` is the squared magnitude of each bin `k` it
examines, no NaN (41_fft_peak.md R153, R164). -/
structure State.Searchable (s : State) (m : Nat → FloatVal) : Prop where
  idle : s.Idle
  fmt : s.fmt = .binary32
  magnitudes : ∀ k, 1 ≤ k → k ≤ 511 → ∃ x y, s.readRe k = .ok x ∧ s.readIm k = .ok y ∧
    m k = b32Add (b32Mul x x) (b32Mul y y) ∧ b32IsNaN (m k) = false

/-- `t` is in the search, the bins 1 to `n` examined: its best bin is the lowest maximum of those. -/
structure State.SearchedUpTo (t : State) (m : Nat → FloatVal) (n : Nat) : Prop where
  searchable : t.Searchable m
  seq : t.seq = if n = 511 then .pkd else .pks
  next : t.pkK.toNat = n + 1
  mag : t.pkMag = m t.pkBin.toNat
  best : IsLowestMax (fun k => b32Order (m k)) n t.pkBin.toNat

variable {m : Nat → FloatVal}

theorem State.Searchable.b32Gt_iff (h : s.Searchable m) {j k : Nat} (hj : 1 ≤ j) (hj' : j ≤ 511) (hk : 1 ≤ k)
    (hk' : k ≤ 511) : b32Gt (m j) (m k) = true ↔ b32Order (m k) < b32Order (m j) := by
  obtain ⟨-, -, -, -, -, hnanj⟩ := h.magnitudes j hj hj'
  obtain ⟨-, -, -, -, -, hnank⟩ := h.magnitudes k hk hk'
  exact Sys2Proof.b32Gt_iff hnanj hnank

theorem searchedUpTo_pkInit (h : s.Searchable m) (hseq : s.seq = .pki) :
    ∃ t, exec .pkInit s = .next t ∧ t.SearchedUpTo m 1 := by
  obtain ⟨x, y, hx, hy, hm, -⟩ := h.magnitudes 1 le_rfl (by decide)
  refine ⟨_, (peakSearchStartsAtBinOne.2 s).1 ⟨hseq, h.idle⟩ x y hx hy, ⟨h.idle, h.fmt, h.magnitudes⟩, rfl, rfl, ?_,
    isLowestMax_one _⟩
  simp only [h.fmt]
  exact hm.symm

/-- A scan examines one bin more. -/
theorem State.SearchedUpTo.pkScan (h : t.SearchedUpTo m n) (hn : n < 511) :
    ∃ u, exec .pkScan t = .next u ∧ u.SearchedUpTo m (n + 1) := by
  obtain ⟨hsearch, hseq, hnext, hbest, hmax⟩ := h
  rw [if_neg hn.ne] at hseq
  obtain ⟨x, y, hx, hy, hm, -⟩ := hsearch.magnitudes (n + 1) (by omega) (by omega)
  obtain ⟨u, hexec, hstate, hgt, hle, hk, hlast, hmore⟩ := (peakScanKeepsTheStrictlyGreater.2 t).1
    ⟨hseq, hsearch.idle⟩ (by omega) x y (hnext ▸ hx) (hnext ▸ hy)
  have hsearch' : u.Searchable m := hstate.symm.subst (motive := (State.Searchable · m))
    ⟨hsearch.idle, hsearch.fmt, hsearch.magnitudes⟩
  have hseq' : u.seq = if n + 1 = 511 then .pkd else .pks := by
    rw [hnext] at hlast hmore
    split
    · exact hlast ‹_›
    · exact hmore ‹_›
  have hmag : t.fmt.add (t.fmt.mul x x) (t.fmt.mul y y) = m (n + 1) := by
    rw [hsearch.fmt]
    exact hm.symm
  rw [hmag, hbest, hsearch.fmt] at hgt hle
  have horder := hsearch.b32Gt_iff (Nat.le_add_left 1 n) hn hmax.pos (hmax.le.trans hn.le)
  by_cases hc : b32Gt (m (n + 1)) (m t.pkBin.toNat) = true
  · obtain ⟨hmag', hbin⟩ := hgt hc
    rw [hnext] at hbin
    exact ⟨u, hexec, hsearch', hseq', by rw [hk, hnext], by rw [hmag', hbin],
      hbin ▸ hmax.replace (horder.1 hc)⟩
  · obtain ⟨hmag', hbin⟩ := hle (Bool.eq_false_iff.2 hc)
    exact ⟨u, hexec, hsearch', hseq', by rw [hk, hnext], by rw [hmag', hbin],
      hbin ▸ hmax.keep (not_lt.1 (mt horder.2 hc))⟩

theorem State.SearchedUpTo.runOperations {c : Nat} (h : t.SearchedUpTo m n) (hc : n + c ≤ 511) :
    ∃ u, runOperations (List.replicate c .pkScan) t = .next u ∧ u.SearchedUpTo m (n + c) := by
  induction c generalizing t n with
  | zero => exact ⟨t, rfl, h⟩
  | succ c ih =>
    obtain ⟨u, hexec, hu⟩ := h.pkScan (by omega)
    obtain ⟨v, hrun, hv⟩ := ih hu (by omega)
    refine ⟨v, (runOperations_cons hexec).trans hrun, ?_⟩
    rwa [← Nat.add_assoc, Nat.add_right_comm]

/-- Settles O39: every scan keeps the best bin the lowest maximum of those examined. -/
theorem peakSearchFindsTheLowestMaximum : Obligations.PeakSearchFindsTheLowestMaximum := by
  intro s m hseq hidle hfmt hmag
  obtain ⟨u, hexec, hu⟩ := searchedUpTo_pkInit ⟨hidle, hfmt, hmag⟩ hseq
  obtain ⟨t, hrun, ht⟩ := hu.runOperations (c := 510) le_rfl
  obtain ⟨hsearch, hphase, -, hbest, hmax⟩ := ht
  refine ⟨t, (runOperations_cons hexec).trans hrun, hphase, hmax.pos, hbest, fun k hlo hhi => ?_, fun k hlo hlt => ?_⟩
  · exact Bool.eq_false_iff.2 fun hgt =>
      absurd ((hsearch.b32Gt_iff hlo hhi hmax.pos hmax.le).1 hgt) (not_lt.2 (hmax.max k hlo hhi))
  · exact (hsearch.b32Gt_iff hmax.pos hmax.le hlo (hlt.le.trans hmax.le)).2 (hmax.lowest k hlo hlt)

end Search

end Sys2Proof.Machine
end

section
/-! SUPPORT. The pitch quantizer's operations one by one: what each leaves (42_quantizer.md R181 to R183, R185). -/

namespace Sys2Proof.Machine

variable {s t : State}

/-- The search's distance is the magnitude of the exact difference (42_quantizer.md R183 (b)). -/
theorem absDiff_eq_natAbs (a b : Nat) : absDiff a b = ((a : Int) - b).natAbs := by
  unfold absDiff
  split <;> omega

/-- The distance of two registers fits a register (42_quantizer.md R183 (b)). -/
theorem toNat_absDiff (a b : Word) : (BitVec.ofNat 32 (absDiff a.toNat b.toNat)).toNat = absDiff a.toNat b.toNat := by
  rw [BitVec.toNat_ofNat, Nat.mod_eq_of_lt]
  unfold absDiff
  split <;> omega

/-- A note that can be read lies in its row (10_state.md R42). -/
theorem readNote_lt {o n : Nat} {v : Word} (hread : s.readNote o n = .ok v) : n < 12 := by
  by_contra hge
  cases (if_neg hge).symm.trans hread

/-- The state `QNT.START` leaves (42_quantizer.md R181). -/
def State.quantizing (s : State) : State :=
  { s with qIn := s.domFreqE4, qF := s.domFreqE4, qOct := 0, seq := .qrd, valued := { s.valued with qIn := true } }

theorem exec_qntStart (hguard : s.seq = .qst ∧ s.Idle) : exec .qntStart s = .next s.quantizing :=
  guarded_foreground (p := .qst) hguard _

theorem exec_qntRed_halve (hguard : s.seq = .qrd ∧ s.Idle) (hgt : 317900 < s.qF.toNat) :
    exec .qntRed s = .next { s with qF := s.qF >>> 1, qOct := s.qOct + 1 } :=
  (guarded_foreground (p := .qrd) hguard _).trans (if_pos hgt)

theorem exec_qntRed_leave (hguard : s.seq = .qrd ∧ s.Idle) (hle : s.qF.toNat ≤ 317900) {v : Word}
    (hread : s.readNote 0 0 = .ok v) : exec .qntRed s = .next { s with
      qBest := 0, qBdiff := BitVec.ofNat 32 (absDiff s.qF.toNat v.toNat), qN := 1, seq := .qcm } := by
  refine (guarded_foreground (p := .qrd) hguard _).trans ((if_neg (not_lt.2 hle)).trans ?_)
  rw [hread, andThen_ok]

theorem exec_qntCmp_nearer (hguard : s.seq = .qcm ∧ s.Idle) {v : Word} (hread : s.readNote 0 s.qN.toNat = .ok v)
    (hd : absDiff s.qF.toNat v.toNat < s.qBdiff.toNat) : exec .qntCmp s = .next { s with
      qBdiff := BitVec.ofNat 32 (absDiff s.qF.toNat v.toNat), qBest := s.qN, qN := s.qN + 1,
      seq := if s.qN.toNat = 11 then .qout else .qcm } := by
  refine (guarded_foreground (p := .qcm) hguard _).trans ?_
  simp only [hread, andThen_ok, if_pos hd]

theorem exec_qntCmp_notNearer (hguard : s.seq = .qcm ∧ s.Idle) {v : Word} (hread : s.readNote 0 s.qN.toNat = .ok v)
    (hd : ¬absDiff s.qF.toNat v.toNat < s.qBdiff.toNat) :
    exec .qntCmp s = .next { s with qN := s.qN + 1, seq := if s.qN.toNat = 11 then .qout else .qcm } := by
  refine (guarded_foreground (p := .qcm) hguard _).trans ?_
  simp only [hread, andThen_ok, if_neg hd]

theorem exec_qntOut_clamped (hguard : s.seq = .qout ∧ s.Idle) {l : BitVec 16} {v : Word}
    (hlabel : s.readLabel s.qBest.toNat = .ok l) (hoct : 9 ≤ s.qOct.toNat)
    (hnote : s.readNote 8 s.qBest.toNat = .ok v) :
    exec .qntOut s = .next { s with qLabel := l, qFreq := v, status := s.status ||| 0b1000, seq := .pub } := by
  have hclamp : s.resultOctave = 8 := if_pos hoct
  refine (guarded_foreground (p := .qout) hguard _).trans ?_
  rw [hlabel, hclamp, hnote, andThen_ok, andThen_ok, if_pos (show octaveCount ≤ s.qOct.toNat from hoct)]
  rfl

theorem exec_qntOut_inTable (hguard : s.seq = .qout ∧ s.Idle) {l : BitVec 16} {v : Word}
    (hlabel : s.readLabel s.qBest.toNat = .ok l) (hoct : s.qOct.toNat < 9)
    (hnote : s.readNote s.qOct.toNat s.qBest.toNat = .ok v) :
    exec .qntOut s = .next { s with qLabel := l, qFreq := v, seq := .pub } := by
  have hrow : s.resultOctave = s.qOct.toNat := if_neg (not_le.2 hoct)
  refine (guarded_foreground (p := .qout) hguard _).trans ?_
  rw [hlabel, hrow, hnote, andThen_ok, andThen_ok, if_neg (show ¬octaveCount ≤ s.qOct.toNat from not_le.2 hoct)]

/-- Settles O43: latching is the operation's one effect. -/
theorem quantizerLatchesItsInput : Obligations.QuantizerLatchesItsInput :=
  ⟨rfl, fun _ => ⟨fun hguard => ⟨_, exec_qntStart hguard, rfl⟩, exec_refused_of_enabled_iff foregroundEnabled_iff⟩⟩

/-- Settles O44: the halving is a shift, and the count and the distance fit their registers. -/
theorem reductionHalvesOrLeaves : Obligations.ReductionHalvesOrLeaves := by
  refine ⟨rfl, fun s => ⟨fun hguard => ⟨fun hgt hoct => ?_, fun hle v hread => ?_⟩,
    exec_refused_of_enabled_iff foregroundEnabled_iff⟩⟩
  · have hcount : (s.qOct + 1).toNat = s.qOct.toNat + 1 := by bv_omega
    exact ⟨_, exec_qntRed_halve hguard hgt, rfl, BitVec.toNat_ushiftRight .., hcount⟩
  · exact ⟨_, exec_qntRed_leave hguard hle hread, rfl, (toNat_absDiff s.qF v).trans (absDiff_eq_natAbs _ _)⟩

/-- Settles O45: the note is strictly nearer than the best one or it is not, and both go on to the next note. -/
theorem comparisonKeepsTheFirstNearest : Obligations.ComparisonKeepsTheFirstNearest := by
  refine ⟨rfl, fun s => ⟨fun hguard v hread => ?_, exec_refused_of_enabled_iff foregroundEnabled_iff⟩⟩
  intro d
  have hn := readNote_lt hread
  have hnext : (s.qN + 1).toNat = s.qN.toNat + 1 := by bv_omega
  have hd : absDiff s.qF.toNat v.toNat = d := absDiff_eq_natAbs _ _
  by_cases hlt : d < s.qBdiff.toNat
  · exact ⟨_, exec_qntCmp_nearer hguard hread (hd ▸ hlt), rfl, fun _ => ⟨(toNat_absDiff s.qF v).trans hd, rfl⟩,
      fun hge => absurd hlt hge, hnext, fun h => if_pos h, fun h => if_neg h⟩
  · exact ⟨_, exec_qntCmp_notNearer hguard hread (hd ▸ hlt), rfl, fun h => absurd h hlt, fun _ => ⟨rfl, rfl⟩,
      hnext, fun h => if_pos h, fun h => if_neg h⟩

/-- Settles O46: the octave is in the table or clamped to its last row. -/
theorem resultIsClampedToTheTable : Obligations.ResultIsClampedToTheTable :=
  ⟨rfl, fun _ => ⟨fun hguard _ _ hlabel => ⟨exec_qntOut_clamped hguard hlabel, exec_qntOut_inTable hguard hlabel⟩,
    exec_refused_of_enabled_iff foregroundEnabled_iff⟩⟩

end Sys2Proof.Machine
end

section
/-! SUPPORT. The pitch quantizer as a function of its input (42_quantizer.md R184, R186, R187): the search of the
configuration's constraints finds the first nearest note, and the operations run that search on the reduced input. -/

namespace Sys2Proof.Machine

variable {s t : State}

section Nearest

variable {note : Nat → Nat} {x n : Nat}

/-- The search goes on at the end of a row as it does within it (42_quantizer.md R183). -/
theorem nearestFrom_concat (x v : Nat) (row : List Nat) (n best diff : Nat) :
    nearestFrom x (row ++ [v]) n best diff = if absDiff x v < (nearestFrom x row n best diff).2
      then (n + row.length, absDiff x v) else nearestFrom x row n best diff := by
  induction row generalizing n best diff with
  | nil => rfl
  | cons w row ih =>
    simp only [List.cons_append, nearestFrom, ih, List.length_cons, Nat.add_right_comm n 1, ← Nat.add_assoc]
    split <;> rfl

theorem nearestNote_concat {x v : Nat} {row : List Nat} (hrow : 0 < row.length) :
    nearestNote (row ++ [v]) x = if absDiff x v < (nearestNote row x).2
      then (row.length, absDiff x v) else nearestNote row x := by
  cases row with
  | nil => cases hrow
  | cons w row => exact (nearestFrom_concat x v row 1 0 _).trans (by rw [Nat.add_comm 1]; rfl)

/-- The search of the first `n` of the values `note`: the index it finds and that value's distance from `x`. -/
def nearestAmong (note : Nat → Nat) (x n : Nat) : Nat × Nat :=
  nearestNote ((List.range n).map note) x

theorem nearestAmong_one (note : Nat → Nat) (x : Nat) : nearestAmong note x 1 = (0, absDiff x (note 0)) := rfl

/-- Only a strictly nearer value replaces the best (42_quantizer.md R183). -/
theorem nearestAmong_succ (note : Nat → Nat) (x : Nat) (hn : 1 ≤ n) :
    nearestAmong note x (n + 1) = if absDiff x (note n) < (nearestAmong note x n).2
      then (n, absDiff x (note n)) else nearestAmong note x n := by
  have hrow : 0 < ((List.range n).map note).length := by rwa [List.length_map, List.length_range]
  rw [nearestAmong, List.range_succ, List.map_append, List.map_singleton, nearestNote_concat hrow, List.length_map,
    List.length_range, nearestAmong]

/-- How close the value counted `k` lies to `x`: values are counted from 1, as the places of a lowest maximum are. -/
def closeness (note : Nat → Nat) (x : Nat) : Nat → Int
  | 0 => 0
  | k + 1 => -(absDiff x (note k) : Int)

/-- The search finds the first of the closest values, and its distance (42_quantizer.md R184). -/
theorem isLowestMax_nearestAmong (note : Nat → Nat) (x : Nat) (hn : 1 ≤ n) :
    IsLowestMax (closeness note x) n ((nearestAmong note x n).1 + 1) ∧
      (nearestAmong note x n).2 = absDiff x (note (nearestAmong note x n).1) := by
  induction n, hn using Nat.le_induction with
  | base => exact ⟨isLowestMax_one _, rfl⟩
  | succ n hn ih =>
    obtain ⟨hmax, hdiff⟩ := ih
    rw [nearestAmong_succ note x hn, hdiff]
    split
    · exact ⟨hmax.replace (neg_lt_neg (Int.ofNat_lt.2 ‹_›)), rfl⟩
    · exact ⟨hmax.keep (neg_le_neg (Int.ofNat_le.2 (not_lt.1 ‹_›))), hdiff⟩

theorem nearestAmong_lt (note : Nat → Nat) (x : Nat) (hn : 1 ≤ n) : (nearestAmong note x n).1 < n :=
  (isLowestMax_nearestAmong note x hn).1.le

/-- No value is nearer than the one found. -/
theorem nearestAmong_le {m : Nat} (hm : m < n) :
    absDiff x (note (nearestAmong note x n).1) ≤ absDiff x (note m) :=
  Int.ofNat_le.1 (neg_le_neg_iff.1
    ((isLowestMax_nearestAmong note x (Nat.one_le_of_lt hm)).1.max (m + 1) (Nat.succ_pos m) hm))

/-- Every value before the one found is farther. -/
theorem nearestAmong_first {m : Nat} (hn : 1 ≤ n) (hm : m < (nearestAmong note x n).1) :
    absDiff x (note (nearestAmong note x n).1) < absDiff x (note m) :=
  Int.ofNat_lt.1 (neg_lt_neg_iff.1
    ((isLowestMax_nearestAmong note x hn).1.lowest (m + 1) (Nat.succ_pos m) (Nat.succ_lt_succ hm)))

end Nearest

section Run

variable {k n : Nat}

/-- `NOTE_TABLE[o][n]` (10_state.md R42). -/
def State.noteEntry (s : State) (o n : Nat) : Word :=
  s.cfg.val.noteTable.getD (12 * o + n) 0

/-- The value of note `n` of octave 0, where the quantizer searches (42_quantizer.md R183 (d)). -/
def State.octaveZero (s : State) (n : Nat) : Nat :=
  (s.noteEntry 0 n).toNat

/-- The quantizer's input after `k` halvings (42_quantizer.md R182 (c)). -/
def State.halvedInput (s : State) (k : Nat) : Nat :=
  s.domFreqE4.toNat / 2 ^ k

/-- A 32-bit input is at the threshold after 14 halvings (42_quantizer.md R182 (e)). -/
theorem halvedInput_le_threshold (s : State) (hk : 14 ≤ k) : s.halvedInput k ≤ 317900 := by
  have hlt := s.domFreqE4.isLt
  have hle : s.halvedInput k ≤ s.domFreqE4.toNat / 2 ^ 14 :=
    Nat.div_le_div_left (Nat.pow_le_pow_right (by decide) hk) (by decide)
  omega

/-- `t` is in a run of the quantizer that began in `s`: no handler is in its way, and the tables, the configuration
and `STATUS` are as they were. -/
structure State.Quantizes (t s : State) : Prop where
  idle : t.Idle
  tables : t.TablesLoaded
  cfg : t.cfg = s.cfg
  status : t.status = s.status

theorem State.Quantizes.readNote (h : t.Quantizes s) {o : Nat} (ho : o < 9) (hn : n < 12) :
    t.readNote o n = .ok (s.noteEntry o n) := by
  obtain ⟨hnote, -, -⟩ := h.tables
  rw [hnote o n ho hn, h.cfg, State.noteEntry]

theorem State.Quantizes.readLabel (h : t.Quantizes s) (hn : n < 12) :
    t.readLabel n = .ok (s.cfg.val.labelTable.getD n 0) := by
  obtain ⟨-, hlabel, -⟩ := h.tables
  rw [hlabel n hn, h.cfg]

/-- `t` has halved the input of `s` `k` times. -/
structure State.Halved (t s : State) (k : Nat) : Prop extends t.Quantizes s where
  seq : t.seq = .qrd
  value : t.qF.toNat = s.halvedInput k
  count : t.qOct.toNat = k

/-- `t` has searched the first `n` notes for the one nearest to the input of `s`, halved `k` times. -/
structure State.Compared (t s : State) (k n : Nat) : Prop extends t.Quantizes s where
  seq : t.seq = if n = 12 then .qout else .qcm
  value : t.qF.toNat = s.halvedInput k
  count : t.qOct.toNat = k
  next : t.qN.toNat = n
  nearest : (t.qBest.toNat, t.qBdiff.toNat) = nearestAmong s.octaveZero (s.halvedInput k) n

/-- The quantizer starts with no halving. -/
theorem halved_qntStart (hguard : s.seq = .qst ∧ s.Idle) (htab : s.TablesLoaded) :
    ∃ t, exec .qntStart s = .next t ∧ t.Halved s 0 :=
  ⟨_, exec_qntStart hguard, ⟨hguard.2, htab, rfl, rfl⟩, rfl, (Nat.div_one _).symm, rfl⟩

/-- Above the threshold the input is halved once more. -/
theorem State.Halved.qntRed_halve (h : t.Halved s k) (hgt : 317900 < s.halvedInput k) :
    ∃ u, exec .qntRed t = .next u ∧ u.Halved s (k + 1) := by
  obtain ⟨hrun, hseq, hvalue, hcount⟩ := h
  have hk : k < 14 := not_le.1 fun hk => absurd (halvedInput_le_threshold s hk) (not_le.2 hgt)
  have hnext : (t.qOct + 1).toNat = k + 1 := by bv_omega
  refine ⟨_, exec_qntRed_halve ⟨hseq, hrun.idle⟩ (hvalue ▸ hgt), ⟨hrun.idle, hrun.tables, hrun.cfg, hrun.status⟩,
    hseq, ?_, hnext⟩
  rw [BitVec.toNat_ushiftRight, hvalue, Nat.shiftRight_eq_div_pow, State.halvedInput, Nat.div_div_eq_div_mul,
    ← Nat.pow_add, State.halvedInput]

theorem State.Halved.runOperations (h : t.Halved s 0) (hgt : ∀ j, j < k → 317900 < s.halvedInput j) :
    ∃ u, runOperations (List.replicate k .qntRed) t = .next u ∧ u.Halved s k := by
  induction k with
  | zero => exact ⟨t, rfl, h⟩
  | succ k ih =>
    obtain ⟨u, hrun, hu⟩ := ih fun j hj => hgt j (hj.trans (Nat.lt_succ_self k))
    obtain ⟨v, hexec, hv⟩ := hu.qntRed_halve (hgt k (Nat.lt_succ_self k))
    exact ⟨v, by rw [List.replicate_succ', runOperations_append hrun, runOperations_cons hexec]; rfl, hv⟩

/-- At the threshold the search starts with note 0. -/
theorem State.Halved.qntRed_leave (h : t.Halved s k) (hle : s.halvedInput k ≤ 317900) :
    ∃ u, exec .qntRed t = .next u ∧ u.Compared s k 1 := by
  obtain ⟨hrun, hseq, hvalue, hcount⟩ := h
  refine ⟨_, exec_qntRed_leave ⟨hseq, hrun.idle⟩ (hvalue ▸ hle) (hrun.readNote (by decide) (by decide)),
    ⟨hrun.idle, hrun.tables, hrun.cfg, hrun.status⟩, rfl, hvalue, hcount, rfl, ?_⟩
  rw [nearestAmong_one, toNat_absDiff, hvalue]
  rfl

/-- A comparison searches one note more. -/
theorem State.Compared.qntCmp (h : t.Compared s k n) (hlo : 1 ≤ n) (hhi : n < 12) :
    ∃ u, exec .qntCmp t = .next u ∧ u.Compared s k (n + 1) := by
  obtain ⟨hrun, hseq, hvalue, hcount, hn, hnear⟩ := h
  rw [if_neg hhi.ne] at hseq
  have hread : t.readNote 0 t.qN.toNat = .ok (s.noteEntry 0 n) := hn.symm ▸ hrun.readNote (by decide) hhi
  have hnext : (t.qN + 1).toNat = n + 1 := by bv_omega
  have hphase : (if t.qN.toNat = 11 then Phase.qout else .qcm) = if n + 1 = 12 then .qout else .qcm :=
    if_congr (by omega) rfl rfl
  have hstep := nearestAmong_succ s.octaveZero (s.halvedInput k) hlo
  rw [← hnear, ← hvalue] at hstep
  by_cases hlt : absDiff t.qF.toNat (s.noteEntry 0 n).toNat < t.qBdiff.toNat
  · refine ⟨_, exec_qntCmp_nearer ⟨hseq, hrun.idle⟩ hread hlt, ⟨hrun.idle, hrun.tables, hrun.cfg, hrun.status⟩,
      hphase, hvalue, hcount, hnext, ?_⟩
    rw [← hvalue, hstep.trans (if_pos hlt), toNat_absDiff, hn]
    rfl
  · refine ⟨_, exec_qntCmp_notNearer ⟨hseq, hrun.idle⟩ hread hlt, ⟨hrun.idle, hrun.tables, hrun.cfg, hrun.status⟩,
      hphase, hvalue, hcount, hnext, ?_⟩
    rw [← hvalue, hstep.trans (if_neg hlt)]

theorem State.Compared.runOperations {c : Nat} (h : t.Compared s k n) (hlo : 1 ≤ n) (hc : n + c ≤ 12) :
    ∃ u, runOperations (List.replicate c .qntCmp) t = .next u ∧ u.Compared s k (n + c) := by
  induction c generalizing t n with
  | zero => exact ⟨t, rfl, h⟩
  | succ c ih =>
    obtain ⟨u, hexec, hu⟩ := h.qntCmp hlo (by omega)
    obtain ⟨v, hrun, hv⟩ := ih hu (by omega) (by omega)
    refine ⟨v, (runOperations_cons hexec).trans hrun, ?_⟩
    rwa [← Nat.add_assoc, Nat.add_right_comm]

/-- The index of the note the quantizer finds for the input of `s`, halved `k` times. -/
def State.foundNote (s : State) (k : Nat) : Nat :=
  (nearestAmong s.octaveZero (s.halvedInput k) 12).1

theorem foundNote_lt (s : State) (k : Nat) : s.foundNote k < 12 :=
  nearestAmong_lt _ _ (by decide)

/-- `t` has quantized the input of `s`, which took `k` halvings (42_quantizer.md R186). -/
structure State.Quantized (t s : State) (k : Nat) : Prop where
  seq : t.seq = .pub
  count : t.qOct.toNat = k
  best : t.qBest.toNat = s.foundNote k
  label : t.qLabel = s.cfg.val.labelTable.getD (s.foundNote k) 0
  freq : t.qFreq = s.noteEntry (min k 8) (s.foundNote k)
  status : t.status = if 9 ≤ k then s.status ||| 0b1000 else s.status

/-- After the last comparison the result is formed. -/
theorem State.Compared.qntOut (h : t.Compared s k 12) : ∃ u, exec .qntOut t = .next u ∧ u.Quantized s k := by
  obtain ⟨hrun, hseq, -, hcount, -, hnear⟩ := h
  have hbest : t.qBest.toNat = s.foundNote k := congrArg Prod.fst hnear
  have hlabel : t.readLabel t.qBest.toNat = .ok (s.cfg.val.labelTable.getD (s.foundNote k) 0) :=
    hbest.symm ▸ hrun.readLabel (foundNote_lt s k)
  have hnote {o : Nat} (ho : o < 9) : t.readNote o t.qBest.toNat = .ok (s.noteEntry o (s.foundNote k)) :=
    hbest.symm ▸ hrun.readNote ho (foundNote_lt s k)
  by_cases hk : 9 ≤ k
  · refine ⟨_, exec_qntOut_clamped ⟨hseq, hrun.idle⟩ hlabel (hcount ▸ hk) (hnote (by decide)), rfl, hcount, hbest,
      rfl, ?_, ?_⟩
    · rw [Nat.min_eq_right (by omega)]
    · rw [if_pos hk, ← hrun.status]
  · refine ⟨_, exec_qntOut_inTable ⟨hseq, hrun.idle⟩ hlabel (hcount ▸ not_le.1 hk) (hnote (hcount ▸ not_le.1 hk)), rfl,
      hcount, hbest, rfl, ?_, ?_⟩
    · rw [Nat.min_eq_left (by omega), hcount]
    · rw [if_neg hk, ← hrun.status]

/-- The quantizer's operations complete: the input is halved `k` times, the twelve notes are searched and the result is
formed (42_quantizer.md R186). -/
theorem runOperations_qntRun (hguard : s.seq = .qst ∧ s.Idle) (htab : s.TablesLoaded)
    (hgt : ∀ j, j < k → 317900 < s.halvedInput j) (hle : s.halvedInput k ≤ 317900) :
    ∃ t, runOperations (qntRunOperations k) s = .next t ∧ t.Quantized s k := by
  obtain ⟨a, hstart, ha⟩ := halved_qntStart hguard htab
  obtain ⟨b, hhalve, hb⟩ := ha.runOperations hgt
  obtain ⟨c, hleave, hc⟩ := hb.qntRed_leave hle
  obtain ⟨d, hcompare, hd⟩ := hc.runOperations (c := 11) le_rfl le_rfl
  obtain ⟨t, hout, ht⟩ := hd.qntOut
  refine ⟨t, ?_, ht⟩
  rw [qntRunOperations, runOperations_cons hstart, List.replicate_succ', List.append_assoc, List.append_assoc,
    runOperations_append hhalve, List.singleton_append, runOperations_cons hleave, runOperations_append hcompare,
    runOperations_cons hout]
  rfl

/-- Settles O47: some number of halvings up to 14 suffices, and the search finds the first nearest note. -/
theorem quantizerHasItsClosedForm : Obligations.QuantizerHasItsClosedForm := by
  intro s hseq hidle htab f note
  have hex : ∃ k, s.halvedInput k ≤ 317900 := ⟨14, halvedInput_le_threshold s le_rfl⟩
  obtain ⟨t, hrun, ht⟩ := runOperations_qntRun ⟨hseq, hidle⟩ htab (fun j hj => not_le.1 (Nat.find_min hex hj))
    (Nat.find_spec hex)
  refine ⟨Nat.find hex, s.foundNote (Nat.find hex), t, Nat.find_spec hex, fun j hj => not_le.1 (Nat.find_min hex hj),
    foundNote_lt s _, fun m hm => ?_, fun m hm => ?_, hrun, ht.seq, ht.count, ht.best, ht.label,
    congrArg BitVec.toNat ht.freq, ht.status⟩
  · rw [← absDiff_eq_natAbs, ← absDiff_eq_natAbs]
    exact nearestAmong_le hm
  · rw [← absDiff_eq_natAbs, ← absDiff_eq_natAbs]
    exact nearestAmong_first (by decide) hm

end Run

section TableEntries

/-- What the constraints on a note table say about each entry (10_state.md R43). -/
theorem noteEntriesValid_getElem {row0 l : List Nat} {b : Nat} (h : noteEntriesValid row0 l b = true) {i : Nat}
    (hi : i < l.length) : l[i] / 2 ^ ((b + i) / 12) ≤ 317900 ∧
      ((b + i) / 12 = 0 ∨ 317900 < l[i] / 2 ^ ((b + i) / 12 - 1)) ∧
      (nearestNote row0 (l[i] / 2 ^ ((b + i) / 12))).1 = (b + i) % 12 := by
  induction l generalizing b i with
  | nil => cases hi
  | cons v l ih =>
    simp only [noteEntriesValid, Bool.and_eq_true, Bool.or_eq_true, Nat.ble_eq, Nat.beq_eq, Nat.blt_eq] at h
    obtain ⟨⟨⟨hle, hgt⟩, hnear⟩, hrest⟩ := h
    cases i with
    | zero => exact ⟨hle, hgt, hnear⟩
    | succ i =>
      have hb : b + (i + 1) = b + 1 + i := by omega
      rw [hb]
      exact ih hrest (Nat.lt_of_succ_lt_succ hi)

variable {o n : Nat}

/-- Row 0 of the table, as the configuration's constraints read it, holds the notes of octave 0. -/
theorem take_noteTable_eq (s : State) :
    (s.cfg.val.noteTable.map BitVec.toNat).take 12 = (List.range 12).map s.octaveZero := by
  obtain ⟨hlen, -⟩ := Config_valid_lengths s.cfg.property
  refine List.ext_getElem (by simp [hlen]) fun i hi _ => ?_
  have hi : i < s.cfg.val.noteTable.length := by
    rw [List.length_take] at hi
    omega
  simp [State.octaveZero, State.noteEntry, hi]

/-- Every entry of the table is at the threshold after as many halvings as its octave says and no fewer, and is nearest
to its own note (10_state.md R43). -/
theorem noteEntry_valid (s : State) (ho : o < 9) (hn : n < 12) :
    (s.noteEntry o n).toNat / 2 ^ o ≤ 317900 ∧ (o = 0 ∨ 317900 < (s.noteEntry o n).toNat / 2 ^ (o - 1)) ∧
      (nearestAmong s.octaveZero ((s.noteEntry o n).toNat / 2 ^ o) 12).1 = n := by
  obtain ⟨hlen, -⟩ := Config_valid_lengths s.cfg.property
  have hi : 12 * o + n < s.cfg.val.noteTable.length := by omega
  have hcfg := s.cfg.property
  simp only [Config.valid, noteTableValid, Bool.and_eq_true, take_noteTable_eq] at hcfg
  obtain ⟨⟨-, -, hvalid⟩, -⟩ := hcfg
  have hentry := noteEntriesValid_getElem hvalid (i := 12 * o + n) (by rwa [List.length_map])
  have hdiv : (0 + (12 * o + n)) / 12 = o := by omega
  have hmod : (0 + (12 * o + n)) % 12 = n := by omega
  rw [hdiv, hmod, List.getElem_map] at hentry
  rwa [State.noteEntry, List.getD_eq_getElem _ _ hi]

/-- Settles O48: the entry takes as many halvings as its octave says, and its own note is the one found. -/
theorem quantizerReturnsTableEntries : Obligations.QuantizerReturnsTableEntries := by
  intro s o n hseq hidle htab ho hn hinput
  have hentry : s.domFreqE4 = s.noteEntry o n := hinput
  obtain ⟨hle, hgt, hnear⟩ := noteEntry_valid s ho hn
  rw [← hentry] at hle hgt hnear
  have habove (j : Nat) (hj : j < o) : 317900 < s.halvedInput j :=
    (hgt.resolve_left (Nat.ne_of_gt (Nat.zero_lt_of_lt hj))).trans_le
      (Nat.div_le_div_left (Nat.pow_le_pow_right (by decide) (by omega)) (Nat.two_pow_pos j))
  have hfound : s.foundNote o = n := hnear
  obtain ⟨t, hrun, ht⟩ := runOperations_qntRun ⟨hseq, hidle⟩ htab habove hle
  refine ⟨t, hrun, ht.count, hfound ▸ ht.label, ?_, ht.status.trans (if_neg (by omega))⟩
  rw [ht.freq, hfound, Nat.min_eq_left (by omega), hentry]

end TableEntries

end Sys2Proof.Machine
end

section
/-! SUPPORT. The synthesis path: when its operations run and what each leaves (43_synthesis.md R202 to R207), and what
whole activations leave in the oscillators and at the output (R208 to R211). -/

namespace Sys2Proof.Machine

variable {s t : State} {o : Oscillator} {fc : Word}

section Guards

theorem enabled_envStick_iff : enabled .envStick s = true ↔ s.seq ≠ .boot := decide_eq_true_iff

theorem enabled_synEnter_iff : enabled .synEnter s = true ↔ s.synPend = true ∧ s.synAct = false := by
  simp [enabled]

theorem enabled_synStep_iff : enabled .synStep s = true ↔ s.synAct = true ∧ s.synPh = .step := by
  simp [enabled]

theorem enabled_synAdv_iff : enabled .synAdv s = true ↔ s.synAct = true ∧ s.synPh = .adv := by
  simp [enabled]

theorem enabled_synMix_iff : enabled .synMix s = true ↔ s.synAct = true ∧ s.synPh = .mix := by
  simp [enabled]

theorem enabled_synOut_iff : enabled .synOut s = true ↔ s.synAct = true ∧ s.synPh = .out := by
  simp [enabled]

end Guards

section Tick

/-- The state `ENV.STICK` leaves where no tick is pending (43_synthesis.md R202). -/
def State.synTicked (s : State) : State :=
  { s with synPend := true }

theorem exec_envStick_lost (hseq : s.seq ≠ .boot) (hpend : s.synPend = true) :
    exec .envStick s = .next (s.raise .synOvr) :=
  (guarded_enabled (enabled_envStick_iff.2 hseq)).trans (congrArg _ (if_pos hpend))

theorem exec_envStick_pended (hseq : s.seq ≠ .boot) (hpend : s.synPend = false) :
    exec .envStick s = .next s.synTicked :=
  (guarded_enabled (enabled_envStick_iff.2 hseq)).trans (congrArg _ (if_neg (Bool.eq_false_iff.1 hpend)))

theorem exec_synEnter (hguard : s.synPend = true ∧ s.synAct = false) : exec .synEnter s = .next s.enterSyn :=
  guarded_enabled (enabled_synEnter_iff.2 hguard)

/-- Settles O12: the tick is lost where one is pending and pended where none is. -/
theorem synthesisTickIsPendedOrLost : Obligations.SynthesisTickIsPendedOrLost :=
  ⟨rfl, fun _ => ⟨exec_envStick_lost, exec_envStick_pended, fun hseq =>
    exec_refused_of_enabled_iff enabled_envStick_iff (not_not.2 hseq)⟩⟩

/-- Settles O18: entering is the operation's one effect. -/
theorem synthesisHandlerIsEntered : Obligations.SynthesisHandlerIsEntered :=
  ⟨rfl, fun _ => ⟨exec_synEnter, exec_refused_of_enabled_iff enabled_synEnter_iff⟩⟩

end Tick

section Oscillators

/-- The oscillator of a channel whose target frequency is 0 (43_synthesis.md R211). -/
def Oscillator.silent : Oscillator :=
  { inc := 0, acc := 0 }

/-- The oscillator after an advance (43_synthesis.md R205). -/
def Oscillator.advanced (o : Oscillator) : Oscillator :=
  { o with acc := BitVec.ofNat 32 (advancedPhase o) }

/-- The target frequency of channel `c` (00_scope.md R7 `CHF`). -/
def State.target (s : State) (c : Nat) : Word :=
  s.cfg.val.channelFrequency c s.tuneFreq

theorem retuned_zero (o : Oscillator) : retuned 0 o = .silent := if_pos rfl

theorem retuned_of_ne_zero (hfc : fc ≠ 0) (o : Oscillator) :
    retuned fc o = { o with inc := BitVec.ofNat 32 (phaseStep fc.toNat) } := if_neg hfc

/-- The step of every frequency fits its register (43_synthesis.md R204). -/
theorem toNat_inc_retuned (hfc : fc ≠ 0) (o : Oscillator) :
    (retuned fc o).inc.toNat = fc.toNat * 1024 / 3125 := by
  have hlt := fc.isLt
  rw [retuned_of_ne_zero hfc, BitVec.toNat_ofNat, Nat.mod_eq_of_lt (by unfold phaseStep; omega), phaseStep]

theorem acc_retuned (hfc : fc ≠ 0) (o : Oscillator) : (retuned fc o).acc = o.acc := by
  rw [retuned_of_ne_zero hfc]

/-- The remainder fits the phase's register (43_synthesis.md R208). -/
theorem toNat_acc_advanced (o : Oscillator) : o.advanced.acc.toNat = (o.acc.toNat + o.inc.toNat) % 65536000 :=
  (BitVec.toNat_ofNat _ _).trans (Nat.mod_eq_of_lt ((Nat.mod_lt _ (by decide)).trans (by decide)))

theorem advanced_silent : Oscillator.silent.advanced = .silent := rfl

/-- The state `SYN.STEP` leaves (43_synthesis.md R204). -/
def State.stepped (s : State) : State :=
  { s with osc := mapChannels (fun c o => retuned (s.target c) o) 0 s.osc, synPh := .adv }

/-- The state `SYN.ADV` leaves (43_synthesis.md R205). -/
def State.advanced (s : State) : State :=
  { s with osc := mapChannels (fun _ o => o.advanced) 0 s.osc, synPh := .mix }

theorem exec_synStep (hguard : s.synAct = true ∧ s.synPh = .step) : exec .synStep s = .next s.stepped :=
  guarded_enabled (enabled_synStep_iff.2 hguard)

theorem exec_synAdv (hguard : s.synAct = true ∧ s.synPh = .adv) : exec .synAdv s = .next s.advanced :=
  guarded_enabled (enabled_synAdv_iff.2 hguard)

theorem osc_stepped_getElem? (s : State) (c : Nat) :
    s.stepped.osc[c]? = s.osc[c]?.map (retuned (s.target c)) := by
  rw [State.stepped, mapChannels_getElem?, Nat.zero_add]

theorem osc_advanced_getElem? (s : State) (c : Nat) :
    s.advanced.osc[c]? = s.osc[c]?.map Oscillator.advanced :=
  mapChannels_getElem? 0 s.osc c

/-- Settles O19: a channel's new oscillator depends on whether its target is 0. -/
theorem stepsFollowThePublishedFrequency : Obligations.StepsFollowThePublishedFrequency := by
  refine ⟨rfl, fun s => ⟨fun hguard => ⟨s.stepped, exec_synStep hguard, rfl, mapChannels_length _ _, ?_⟩,
    exec_refused_of_enabled_iff enabled_synStep_iff⟩⟩
  intro c o ho fc
  refine ⟨retuned fc o, by rw [osc_stepped_getElem?, ho]; rfl, fun hfc => ?_, fun hfc => ?_⟩
  · rw [hfc, retuned_zero]
    exact ⟨rfl, rfl⟩
  · exact ⟨toNat_inc_retuned hfc o, acc_retuned hfc o⟩

/-- Settles O20: the remainder is taken of the exact sum. -/
theorem phasesAdvanceByTrueRemainder : Obligations.PhasesAdvanceByTrueRemainder :=
  ⟨rfl, fun s => ⟨fun hguard => ⟨s.advanced, exec_synAdv hguard, rfl, mapChannels_length _ _, fun c o ho =>
    ⟨o.advanced, by rw [osc_advanced_getElem?, ho]; rfl, rfl, toNat_acc_advanced o⟩⟩,
    exec_refused_of_enabled_iff enabled_synAdv_iff⟩⟩

end Oscillators

section Output

/-- The state `SYN.MIX` leaves where the channels' entries sum up to `sum` (43_synthesis.md R206). -/
def State.mixed (s : State) (sum : Int) : State :=
  { s with synAcc := mixedSum sum, synPh := .out, valued := { s.valued with synAcc := true } }

/-- The 12 bits `SYN.OUT` writes (43_synthesis.md R207). -/
def State.dacCode (s : State) : BitVec 12 :=
  BitVec.ofInt 12 (outputCode s.synAcc.toInt s.cfg.val.volume s.cfg.val.outShift)

/-- The state `SYN.OUT` leaves (43_synthesis.md R207). -/
def State.emitted (s : State) : State :=
  { s.leaveSyn with
    dacOut := s.dacCode, dacStream := s.dacCode :: s.dacStream, valued := { s.valued with dacOut := true } }

theorem exec_synMix (hguard : s.synAct = true ∧ s.synPh = .mix) {sum : Int} (hsum : s.mixChannels s.osc = .ok sum) :
    exec .synMix s = .next (s.mixed sum) := by
  refine (guarded_enabled (enabled_synMix_iff.2 hguard)).trans ?_
  rw [hsum]
  rfl

theorem exec_synOut (hguard : s.synAct = true ∧ s.synPh = .out) : exec .synOut s = .next s.emitted :=
  guarded_enabled (enabled_synOut_iff.2 hguard)

/-- Where every channel selects an entry that holds a value, the mix is the sum of these (43_synthesis.md R206). -/
theorem mixChannels_eq_sum {w : Oscillator → BitVec 16} {l : List Oscillator}
    (hw : ∀ o ∈ l, s.readWave (waveIndex o) = .ok (w o)) :
    s.mixChannels l = .ok (l.map fun o => (w o).toInt).sum := by
  induction l with
  | nil => rfl
  | cons o l ih =>
    obtain ⟨ho, hw⟩ := List.forall_mem_cons.1 hw
    rw [State.mixChannels, ho, ih hw, List.map_cons, List.sum_cons]

/-- Settles O21: the operation's sum is the entries' sum, which the accumulator holds where it fits. -/
theorem mixSumsTheChannels : Obligations.MixSumsTheChannels :=
  ⟨rfl, fun s => ⟨fun hguard _ hw => ⟨s.mixed _, exec_synMix hguard (mixChannels_eq_sum hw), rfl, mixedSum_toInt⟩,
    exec_refused_of_enabled_iff enabled_synMix_iff⟩⟩

/-- The sums the configuration admits are scaled into 12 signed bits (43_synthesis.md R210). -/
theorem scaledSum_bounds (c : ValidConfig) {acc : Int} (hacc : acc.natAbs ≤ c.val.nch * 32767) :
    -2048 ≤ acc * c.val.volume / 2 ^ c.val.outShift ∧ acc * c.val.volume / 2 ^ c.val.outShift ≤ 2047 := by
  have hmix : mixValid c.val.nch c.val.volume c.val.outShift = true := by
    have hvalid := c.property
    simp only [Config.valid, Bool.and_eq_true] at hvalid
    tauto
  simp only [mixValid, Bool.and_eq_true, decide_eq_true_eq] at hmix
  obtain ⟨⟨-, hmax⟩, hmin⟩ := hmix
  have hvol : (0 : Int) ≤ c.val.volume := Int.natCast_nonneg _
  have hpow : (0 : Int) < 2 ^ c.val.outShift := by positivity
  have hle : acc * c.val.volume ≤ (c.val.nch * 32767 * c.val.volume : Nat) := by
    rw [Nat.cast_mul]
    exact mul_le_mul_of_nonneg_right (by omega) hvol
  have hge : -((c.val.nch * 32767 * c.val.volume : Nat) : Int) ≤ acc * c.val.volume := by
    rw [Nat.cast_mul, ← neg_mul]
    exact mul_le_mul_of_nonneg_right (by omega) hvol
  exact ⟨hmin.trans (Int.ediv_le_ediv hpow hge), (Int.ediv_le_ediv hpow hle).trans hmax⟩

/-- The output code of an admitted sum needs no cut to 12 bits (43_synthesis.md R210). -/
theorem toNat_dacCode (hacc : s.synAcc.toInt.natAbs ≤ s.cfg.val.nch * 32767) :
    (s.dacCode.toNat : Int) = s.synAcc.toInt * s.cfg.val.volume / 2 ^ s.cfg.val.outShift + 2048 := by
  obtain ⟨hlo, hhi⟩ := scaledSum_bounds s.cfg hacc
  rw [State.dacCode, BitVec.toNat_ofInt, outputCode, dacMidpoint]
  omega

/-- Settles O22: the code is in the range of the 12 bits it is cut to. -/
theorem outputCodeIsExact : Obligations.OutputCodeIsExact :=
  ⟨rfl, fun s => ⟨fun hguard hacc => ⟨s.emitted, exec_synOut hguard, rfl, toNat_dacCode hacc⟩,
    exec_refused_of_enabled_iff enabled_synOut_iff⟩⟩

end Output

section Activations

/-- A run that completes keeps the invariant. -/
theorem inv_of_runOperations {ops : List Instr} (h : s.Inv) (hrun : runOperations ops s = .next t) : t.Inv := by
  induction ops generalizing s with
  | nil =>
    cases hrun
    exact h
  | cons i ops ih =>
    obtain ⟨u, hx, hrest⟩ := runOperations_cons_next hrun
    exact ih (inv_of_exec h hx) hrest

/-- An activation can begin: past `BOOT`, with no synthesis tick pending and no activation under way. -/
structure State.SynReady (s : State) : Prop where
  inv : s.Inv
  booted : s.seq ≠ .boot
  notPending : s.synPend = false
  notActive : s.synAct = false

/-- The oscillators an activation leaves (43_synthesis.md R204, R205). -/
def State.nextOsc (s : State) : List Oscillator :=
  s.stepped.advanced.osc

/-- The state in which an activation mixes: the tick is taken, the oscillators are retuned and advanced. -/
def State.tuned (s : State) : State :=
  { s with synPend := false, synAct := true, synPh := .mix, osc := s.nextOsc }

/-- The state one whole activation leaves where its channels sum up to `sum` (30_encoding.md R114). -/
def State.synthesized (s : State) (sum : Int) : State :=
  { s with
    osc := s.nextOsc, synPend := false, synAct := false, synPh := .idle, synAcc := mixedSum sum
    dacOut := (s.tuned.mixed sum).dacCode, dacStream := (s.tuned.mixed sum).dacCode :: s.dacStream
    valued := { s.valued with synAcc := true, dacOut := true } }

/-- The operations of an activation before its mix lead to the state in which it mixes. -/
theorem advanced_stepped_enterSyn_synTicked (s : State) : s.synTicked.enterSyn.stepped.advanced = s.tuned := by
  simp only [State.tuned, State.nextOsc, State.advanced, State.stepped, State.enterSyn, State.synTicked, State.target]

theorem emitted_mixed_tuned (s : State) (sum : Int) : (s.tuned.mixed sum).emitted = s.synthesized sum := by
  simp only [State.synthesized, State.emitted, State.leaveSyn, State.mixed, State.tuned]

theorem length_nextOsc (s : State) : s.nextOsc.length = s.osc.length :=
  (mapChannels_length _ _).trans (mapChannels_length _ _)

theorem nextOsc_getElem? (s : State) (c : Nat) :
    s.nextOsc[c]? = s.osc[c]?.map fun o => (retuned (s.target c) o).advanced := by
  rw [State.nextOsc, osc_advanced_getElem?, osc_stepped_getElem?, Option.map_map]
  rfl

theorem acc_lt_of_mem_nextOsc (ho : o ∈ s.nextOsc) : o.acc.toNat < 65536000 := by
  obtain ⟨-, p, -, rfl⟩ := mem_mapChannels ho
  exact toNat_advancedPhase_lt p

/-- The look-up memories are not the handler's to write (20_memory.md R85). -/
theorem State.SynReady.tablesLoaded_tuned (h : s.SynReady) : s.tuned.TablesLoaded :=
  (h.inv.tables h.booted).congr rfl rfl rfl rfl

/-- A whole activation completes with the sum of its channels and leaves the machine ready for the next. -/
theorem State.SynReady.runOperations (h : s.SynReady) : ∃ sum, s.tuned.mixChannels s.nextOsc = .ok sum ∧
    runOperations synRunOperations s = .next (s.synthesized sum) ∧ (s.synthesized sum).SynReady := by
  obtain ⟨sum, hsum⟩ := exists_mixChannels_ok h.tablesLoaded_tuned fun _ => acc_lt_of_mem_nextOsc
  have hrun : Machine.runOperations synRunOperations s = .next (s.synthesized sum) := by
    rw [synRunOperations, runOperations_cons (exec_envStick_pended h.booted h.notPending),
      runOperations_cons (exec_synEnter (s := s.synTicked) ⟨rfl, h.notActive⟩),
      runOperations_cons (exec_synStep (s := s.synTicked.enterSyn) ⟨rfl, rfl⟩),
      runOperations_cons (exec_synAdv (s := s.synTicked.enterSyn.stepped) ⟨rfl, rfl⟩),
      advanced_stepped_enterSyn_synTicked, runOperations_cons (exec_synMix (s := s.tuned) ⟨rfl, rfl⟩ hsum),
      runOperations_cons (exec_synOut (s := s.tuned.mixed sum) ⟨rfl, rfl⟩), emitted_mixed_tuned]
    rfl
  exact ⟨sum, hsum, hrun, inv_of_runOperations h.inv hrun, h.booted, rfl, rfl⟩

/-- A channel with a target other than 0 advances by its step (43_synthesis.md R209). -/
theorem toNat_acc_advanced_retuned (hfc : fc ≠ 0) (o : Oscillator) :
    (retuned fc o).advanced.acc.toNat = (o.acc.toNat + fc.toNat * 1024 / 3125) % 65536000 := by
  rw [toNat_acc_advanced, acc_retuned hfc, toNat_inc_retuned hfc]

/-- Each of `n` activations adds one step to the phase of a channel whose target is not 0 (43_synthesis.md R209). -/
theorem State.SynReady.runOperations_replicate (h : s.SynReady) (n : Nat) :
    ∃ t, Machine.runOperations (List.replicate n synRunOperations).flatten s = .next t ∧ t.tuneFreq = s.tuneFreq ∧
      ∀ (c : Nat) (o : Oscillator), s.osc[c]? = some o → s.target c ≠ 0 → ∃ p, t.osc[c]? = some p ∧
        p.acc.toNat = (o.acc.toNat + n * ((s.target c).toNat * 1024 / 3125)) % 65536000 := by
  induction n generalizing s with
  | zero =>
    refine ⟨s, rfl, rfl, fun c o ho _ => ⟨o, ho, ?_⟩⟩
    rw [Nat.zero_mul, Nat.add_zero, Nat.mod_eq_of_lt (h.inv.phases o (List.mem_of_getElem? ho))]
  | succ n ih =>
    obtain ⟨sum, -, hrun, hready⟩ := h.runOperations
    obtain ⟨t, hrest, htune, hphase⟩ := ih hready
    refine ⟨t, ?_, htune, fun c o ho hfc => ?_⟩
    · rw [List.replicate_succ, List.flatten_cons, runOperations_append hrun, hrest]
    · have hchannel : (s.synthesized sum).osc[c]? = some (retuned (s.target c) o).advanced :=
        (nextOsc_getElem? s c).trans (congrArg _ ho)
      have htarget : (s.synthesized sum).target c = s.target c := rfl
      obtain ⟨p, hp, hacc⟩ := hphase c _ hchannel hfc
      refine ⟨p, hp, hacc.trans ?_⟩
      rw [htarget, toNat_acc_advanced_retuned hfc, Nat.mod_add_mod, Nat.succ_mul, Nat.add_right_comm, Nat.add_assoc]

/-- Settles O24: it is the law of `n` activations, in a state where one can begin. -/
theorem phaseAccumulatesTheStep : Obligations.PhaseAccumulatesTheStep := fun n _ hinv hseq hpend hact =>
  State.SynReady.runOperations_replicate ⟨hinv, hseq, hpend, hact⟩ n

/-- A channel with target 0 is silent after an activation (43_synthesis.md R211). -/
theorem nextOsc_getElem?_silent {c : Nat} (ho : s.osc[c]? = some o) (hfc : s.target c = 0) :
    s.nextOsc[c]? = some .silent := by
  rw [nextOsc_getElem?, ho, hfc, Option.map_some, retuned_zero, advanced_silent]

/-- Where every target is 0 every channel is silent after an activation. -/
theorem eq_silent_of_mem_nextOsc (hfc : ∀ c, c < s.osc.length → s.target c = 0) (ho : o ∈ s.nextOsc) :
    o = .silent := by
  obtain ⟨c, hc⟩ := List.mem_iff_getElem?.1 ho
  obtain ⟨p, hp, -⟩ := Option.map_eq_some_iff.1 ((nextOsc_getElem? s c).symm.trans hc)
  obtain ⟨hlt, -⟩ := List.getElem?_eq_some_iff.1 hp
  exact Option.some.inj (hc.symm.trans (nextOsc_getElem?_silent hp (hfc c hlt)))

/-- Where every target is 0 the mix is the first wavetable entry, once for each channel (43_synthesis.md R211). -/
theorem State.SynReady.mixChannels_silent (h : s.SynReady) (hfc : ∀ c, c < s.cfg.val.nch → s.target c = 0) :
    s.tuned.mixChannels s.nextOsc = .ok (s.cfg.val.nch * (s.cfg.val.waveTable.getD 0 0).toInt) := by
  obtain ⟨-, -, hwave⟩ := h.tablesLoaded_tuned
  have hentry : ∀ o ∈ s.nextOsc, s.tuned.readWave (waveIndex o) = .ok (s.cfg.val.waveTable.getD 0 0) :=
    fun o ho => by
      rw [eq_silent_of_mem_nextOsc (h.inv.channels ▸ hfc) ho]
      exact hwave 0 (by decide)
  rw [mixChannels_eq_sum hentry, List.map_const', List.sum_replicate, length_nextOsc, h.inv.channels,
    nsmul_eq_mul]

/-- Where every target is 0 the accumulator holds that mix, if it fits. -/
theorem State.SynReady.toInt_mixedSum_silent (h : s.SynReady) {sum : Int}
    (hsum : s.tuned.mixChannels s.nextOsc = .ok sum) (hfc : ∀ c, c < s.cfg.val.nch → s.target c = 0)
    (hfit : s.cfg.val.nch * 32767 < 2 ^ 31) :
    (mixedSum sum).toInt = s.cfg.val.nch * (s.cfg.val.waveTable.getD 0 0).toInt := by
  have hbound := mixChannels_bound h.tablesLoaded_tuned hsum
  rw [length_nextOsc, h.inv.channels] at hbound
  rw [mixedSum_toInt (by omega)]
  exact Except.ok.inj (hsum.symm.trans (h.mixChannels_silent hfc))

/-- The default wavetable begins with 0 (10_state.md R45). -/
theorem waveTable_standard_zero : Config.standard.waveTable.getD 0 0 = 0 := by decide

theorem target_standard_zero (hcfg : s.cfg.val = Config.standard) (htune : s.tuneFreq = 0) (c : Nat) :
    s.target c = 0 := by
  rw [State.target, hcfg, htune]
  rfl

/-- In the default configuration a sum of 0 is the output code's midpoint (43_synthesis.md R211). -/
theorem dacCode_standard_zero (hcfg : s.cfg.val = Config.standard) (hacc : s.synAcc.toInt = 0) : s.dacCode = 2048 := by
  rw [State.dacCode, hcfg, hacc]
  rfl

/-- Settles O23: a target of 0 makes its channel silent, and silent channels select the wavetable's first entry. -/
theorem zeroFrequencyIsSilent : Obligations.ZeroFrequencyIsSilent := by
  intro s hinv hseq hpend hact
  have h : s.SynReady := ⟨hinv, hseq, hpend, hact⟩
  obtain ⟨sum, hsum, hrun, -⟩ := h.runOperations
  refine ⟨s.synthesized sum, hrun, fun c o ho hfc => nextOsc_getElem?_silent ho hfc, h.toInt_mixedSum_silent hsum,
    fun hcfg htune => dacCode_standard_zero (s := s.tuned.mixed sum) hcfg ?_⟩
  have hacc := h.toInt_mixedSum_silent hsum (fun c _ => target_standard_zero hcfg htune c) (by rw [hcfg]; decide)
  rw [hcfg, waveTable_standard_zero] at hacc
  exact hacc

end Activations

end Sys2Proof.Machine
end

section
/-! SUPPORT. The orchestrator's operations one by one: what each leaves (44_orchestrator.md R221 to R223). -/

namespace Sys2Proof.Machine

variable {s : State}

/-- Settles O25: filling the tables makes them readable as configured. -/
theorem initFillsTheTables : Obligations.InitFillsTheTables :=
  ⟨rfl, fun s => ⟨fun hguard => ⟨s.loadTables.goto .fill, guarded_foreground (p := .boot) hguard _, rfl,
    (tablesLoaded_loadTables s).congr rfl rfl rfl rfl⟩, exec_refused_of_enabled_iff foregroundEnabled_iff⟩⟩

/-- Short of the last slot a poll changes nothing (44_orchestrator.md R222). -/
theorem exec_orchPoll_idle (hguard : s.seq = .fill ∧ s.Idle) (hidx : s.wrIdx.toNat ≠ 1023) :
    exec .orchPoll s = .next s :=
  (guarded_foreground (p := .fill) hguard _).trans (congrArg _ (if_neg hidx))

theorem exec_orchPoll_trigger (hguard : s.seq = .fill ∧ s.Idle) (hidx : s.wrIdx.toNat = 1023) :
    exec .orchPoll s = .next s.trigger :=
  (guarded_foreground (p := .fill) hguard _).trans (congrArg _ (if_pos hidx))

theorem trigger_racy (hpol : s.cfg.val.loadPolicy = .racy) : s.trigger = { s with fi := 0, seq := .load } := by
  rw [State.trigger, hpol]

theorem trigger_snapshot (hpol : s.cfg.val.loadPolicy = .snapshot) :
    s.trigger = { s.takeSnapshot with fi := 0, seq := .load } := by
  rw [State.trigger, hpol]

/-- The trigger writes `SNAP`, `FI` and `SEQ` under either policy (44_orchestrator.md R222). -/
theorem trigger_frame (s : State) : s.trigger = { s with snap := s.trigger.snap, fi := 0, seq := .load } := by
  cases hpol : s.cfg.val.loadPolicy with
  | racy => rw [trigger_racy hpol]
  | snapshot =>
    rw [trigger_snapshot hpol]
    rfl

/-- Settles O26: the poll triggers or changes nothing, and the policy decides whether the trigger takes a snapshot. -/
theorem pollTriggersAtTheLastSlot : Obligations.PollTriggersAtTheLastSlot := by
  refine ⟨rfl, fun s => ⟨fun hguard => ⟨exec_orchPoll_idle hguard, fun hidx => ?_⟩,
    exec_refused_of_enabled_iff foregroundEnabled_iff⟩⟩
  refine ⟨s.trigger, exec_orchPoll_trigger hguard hidx, trigger_frame s, fun hracy => ?_, fun hsnap k hk => ?_⟩
  · rw [trigger_racy hracy]
  · rw [trigger_snapshot hsnap]
    exact readSnap_takeSnapshot hk

/-- Settles O27: both fields are written by the operation's one effect. -/
theorem publishIsAtomic : Obligations.PublishIsAtomic :=
  ⟨rfl, fun _ => ⟨fun hguard => guarded_foreground (p := .pub) hguard _,
    exec_refused_of_enabled_iff foregroundEnabled_iff⟩⟩

end Sys2Proof.Machine
end

section
/-! SUPPORT. A whole analysis cycle (30_encoding.md R114, 44_orchestrator.md R225): under the invariant every operation
completes, so what is left to follow is the phase and the counters that decide when it ends. -/

namespace Sys2Proof.Machine

variable {s t : State} {i : Instr} {p q : Phase} {P Q R E F : State → Prop}

section Runs

/-- From every state with `P` the operations complete and end in a state with `Q`. -/
def Leads (P : State → Prop) (ops : List Instr) (Q : State → Prop) : Prop :=
  ∀ s, P s → ∃ t, runOperations ops s = .next t ∧ Q t

theorem Leads.append {xs ys : List Instr} (hxs : Leads P xs Q) (hys : Leads Q ys R) : Leads P (xs ++ ys) R := by
  intro s hs
  obtain ⟨t, hrun, ht⟩ := hxs s hs
  rw [runOperations_append hrun]
  exact hys t ht

/-- `N` parts lead from the first to the last of the conditions between them. -/
theorem Leads.flatMap_range {P : Nat → State → Prop} {body : Nat → List Instr} {N : Nat}
    (h : ∀ n, n < N → Leads (P n) (body n) (P (n + 1))) : Leads (P 0) ((List.range N).flatMap body) (P N) := by
  induction N with
  | zero => exact fun s hs => ⟨s, rfl, hs⟩
  | succ N ih =>
    rw [List.range_succ, List.flatMap_append, List.flatMap_singleton]
    exact (ih fun n hn => h n (hn.trans (Nat.lt_succ_self N))).append (h N (Nat.lt_succ_self N))

/-- A loop of `N` rounds: each but the last leads to the next, and the last one leads out. -/
theorem Leads.loop {P : Nat → State → Prop} {body : Nat → List Instr} {N : Nat} (hpos : 0 < N)
    (hnext : ∀ n, n + 1 < N → Leads (P n) (body n) (P (n + 1)))
    (hlast : ∀ n, n + 1 = N → Leads (P n) (body n) Q) : Leads (P 0) ((List.range N).flatMap body) Q := by
  obtain ⟨M, rfl⟩ := Nat.exists_eq_add_of_lt hpos
  rw [Nat.zero_add, List.range_succ, List.flatMap_append, List.flatMap_singleton]
  exact (Leads.flatMap_range fun n hn => hnext n (by omega)).append (hlast M (by omega))

/-- A loop of equal rounds. -/
theorem Leads.replicate {P : Nat → State → Prop} {body : List Instr} {N : Nat} (hpos : 0 < N)
    (hnext : ∀ n, n + 1 < N → Leads (P n) body (P (n + 1))) (hlast : ∀ n, n + 1 = N → Leads (P n) body Q) :
    Leads (P 0) (List.replicate N body).flatten Q := by
  have hloop := Leads.loop hpos hnext hlast
  rwa [List.flatMap_def, List.map_const', List.length_range] at hloop

/-- A loop of one operation. -/
theorem Leads.replicate_op {P : Nat → State → Prop} {N : Nat} (hpos : 0 < N)
    (hnext : ∀ n, n + 1 < N → Leads (P n) [i] (P (n + 1))) (hlast : ∀ n, n + 1 = N → Leads (P n) [i] Q) :
    Leads (P 0) (List.replicate N i) Q := by
  have hloop := Leads.replicate hpos hnext hlast
  rwa [List.flatten_replicate_singleton] at hloop

end Runs

section Foreground

theorem Phase.op_agent (p : Phase) : p.op.agent = .fg := by
  cases p <;> rfl

/-- The foreground pends no tick and enters no handler (10_state.md R20). -/
theorem Effect.idle (he : Effect i s t) (hfg : i.agent = .fg) (h : s.Idle) : t.Idle := by
  cases he with
  | envReset | envAtickLost | envAtickPended | envEoc | envStickLost | envStickPended | acqEnter | acqWaitExpired
  | acqWaitCounted | acqStore | synEnter | synStep | synAdv | synMix | synOut => cases hfg
  | _ => exact h

theorem idle_of_runOperations {ops : List Instr} (hops : ∀ i ∈ ops, i.agent = .fg) (h : s.Idle)
    (hrun : runOperations ops s = .next t) : t.Idle := by
  induction ops generalizing s with
  | nil =>
    cases hrun
    exact h
  | cons i ops ih =>
    obtain ⟨u, hx, hrest⟩ := runOperations_cons_next hrun
    obtain ⟨hfg, hops⟩ := List.forall_mem_cons.1 hops
    exact ih hops ((exec_effect hx).idle hfg h) hrest

/-- In a state of the invariant with no handler in the way the foreground is in phase `p`, and `E` holds. -/
structure AtPhase (p : Phase) (E : State → Prop) (s : State) : Prop where
  inv : s.Inv
  idle : s.Idle
  seq : s.seq = p
  here : E s

/-- The phase's condition, at the phase the foreground is in. -/
theorem AtPhase.phaseInv (h : AtPhase p E s) : (s.goto p).PhaseInv := by
  obtain rfl := h.seq
  exact h.inv.phase

/-- The phase's operation completes, so it is enough to say where each of its paths leads. -/
theorem leads_op (h : ∀ s t, AtPhase p E s → Effect p.op s t → t.seq = q ∧ F t) :
    Leads (AtPhase p E) [p.op] (AtPhase q F) := by
  intro s hs
  obtain ⟨t, hx⟩ := enabledOperationsComplete p.op s hs.inv
    ((enabled_foreground_iff p.op_agent).2 ⟨congrArg Phase.op hs.seq.symm, hs.idle⟩)
  have he := exec_effect hx
  obtain ⟨hseq, hF⟩ := h s t hs he
  exact ⟨t, runOperations_cons hx, inv_of_exec hs.inv hx, he.idle p.op_agent hs.idle, hseq, hF⟩

end Foreground

section Transform

/-- One load for each element of the frame (41_fft_peak.md R156). -/
theorem leads_fftLoad :
    Leads (AtPhase .load (·.fi.toNat = 0)) (List.replicate 1024 .fftLoad) (AtPhase .rev (·.fi.toNat = 0)) := by
  refine Leads.replicate_op (P := fun n => AtPhase .load (·.fi.toNat = n)) (by decide) (fun n hn => ?_) fun n hn => ?_
  · refine leads_op (p := .load) fun s t hs he => ?_
    obtain ⟨-, -, hseq, hfi⟩ := hs
    cases he with
    | fftLoadLast _ hlast => omega
    | fftLoadNext => exact ⟨hseq, by bv_omega⟩
  · refine leads_op (p := .load) fun s t hs he => ?_
    have hfi := hs.here
    cases he with
    | fftLoadLast => exact ⟨rfl, rfl⟩
    | fftLoadNext _ hmore => omega

/-- One step of the walk for each index but the last (41_fft_peak.md R157). -/
theorem leads_fftRev :
    Leads (AtPhase .rev (·.fi.toNat = 0)) (List.replicate 1023 .fftRev) (AtPhase .stg (·.fstg.toNat = 1)) := by
  refine Leads.replicate_op (P := fun n => AtPhase .rev (·.fi.toNat = n)) (by decide) (fun n hn => ?_) fun n hn => ?_
  · refine leads_op (p := .rev) fun s t hs he => ?_
    obtain ⟨-, -, hseq, hfi⟩ := hs
    cases he with
    | fftRevSwapLast _ _ _ _ hlast | fftRevKeepLast _ _ hlast => omega
    | fftRevSwapNext | fftRevKeepNext => exact ⟨hseq, by bv_omega⟩
  · refine leads_op (p := .rev) fun s t hs he => ?_
    have hfi := hs.here
    cases he with
    | fftRevSwapLast | fftRevKeepLast => exact ⟨rfl, rfl⟩
    | fftRevSwapNext _ _ _ _ hmore | fftRevKeepNext _ _ hmore => omega

variable {n j : Nat}

/-- Position `j` of stage `n`, before its butterfly of group `g`: a group of the stage has `2^n` elements
(41_fft_peak.md R160 (a)). -/
def AtGroup (n j g : Nat) : State → Prop :=
  AtPhase .bfy fun s => s.fstg.toNat = n ∧ s.fj.toNat = j ∧ s.fgrp.toNat = g * 2 ^ n

/-- Position `j` of stage `n`, its butterflies done. -/
def AtTwiddle (n j : Nat) : State → Prop :=
  AtPhase .twn fun s => s.fstg.toNat = n ∧ s.fj.toNat = j

/-- A stage's half group is half its group (41_fft_peak.md R159). -/
theorem State.StageInv.two_mul_fhalf (h : s.StageInv) : 2 * s.fhalf.toNat = 2 ^ s.fstg.toNat := by
  obtain ⟨hlo, -, hhalf, -⟩ := h
  rw [hhalf, ← pow_succ', Nat.sub_add_cancel hlo]

theorem bfyNextGroup_of_atGroup {g : Nat} (h : AtGroup n j g s) : s.bfyNextGroup = (g + 1) * 2 ^ n := by
  obtain ⟨hstage, -⟩ := AtPhase.phaseInv h
  have hhalf : 2 * s.fhalf.toNat = 2 ^ s.fstg.toNat := hstage.two_mul_fhalf
  obtain ⟨hn, -, hg⟩ := h.here
  rw [State.bfyNextGroup, hhalf, hn, hg, Nat.succ_mul]

/-- The butterflies of a position: one for each group of its stage (41_fft_peak.md R160). -/
theorem leads_fftBfy (hn : n ≤ 10) :
    Leads (AtGroup n j 0) (List.replicate (1024 / 2 ^ n) .fftBfy) (AtTwiddle n j) := by
  have hdvd : 2 ^ n ∣ 1024 := pow_dvd_pow 2 hn
  have hgroups : 1024 / 2 ^ n * 2 ^ n = 1024 := Nat.div_mul_cancel hdvd
  refine Leads.replicate_op (P := AtGroup n j) (Nat.div_pos (Nat.le_of_dvd (by decide) hdvd) (Nat.two_pow_pos n))
    (fun g hg => ?_) fun g hg => ?_
  · refine leads_op (p := .bfy) fun s t hs he => ?_
    have hnext := bfyNextGroup_of_atGroup hs
    have hlt : s.bfyNextGroup < 1024 := by
      rw [hnext, ← hgroups]
      exact Nat.mul_lt_mul_of_pos_right hg (Nat.two_pow_pos n)
    obtain ⟨hn, hj, -⟩ := hs.here
    have hfit : (BitVec.ofNat 11 s.bfyNextGroup).toNat = s.bfyNextGroup :=
      (BitVec.toNat_ofNat _ _).trans (Nat.mod_eq_of_lt (hlt.trans (by decide)))
    cases he with
    | fftBfy => exact ⟨if_neg (not_le.2 hlt), hn, hj, hfit.trans hnext⟩
  · refine leads_op (p := .bfy) fun s t hs he => ?_
    have hnext := bfyNextGroup_of_atGroup hs
    rw [hg, hgroups] at hnext
    obtain ⟨hn, hj, -⟩ := hs.here
    cases he with
    | fftBfy => exact ⟨if_pos hnext.ge, hn, hj⟩

theorem fhalf_of_atTwiddle (h : AtTwiddle n j s) : s.fhalf.toNat = 2 ^ (n - 1) := by
  obtain ⟨⟨-, -, hhalf, -⟩, -⟩ := AtPhase.phaseInv h
  obtain ⟨rfl, -⟩ := h.here
  exact hhalf

theorem leads_fftTwn_position (hj : j + 1 < 2 ^ (n - 1)) : Leads (AtTwiddle n j) [.fftTwn] (AtGroup n (j + 1) 0) := by
  refine leads_op (p := .twn) fun s t hs he => ?_
  have hhalf := fhalf_of_atTwiddle hs
  obtain ⟨hn, hsj⟩ := hs.here
  cases he with
  | fftTwnPosition => exact ⟨rfl, hn, by bv_omega, (Nat.zero_mul _).symm⟩
  | fftTwnStage hend | fftTwnLast hend => omega

theorem leads_fftTwn_stage (hj : j + 1 = 2 ^ (n - 1)) (hn : n < 10) :
    Leads (AtTwiddle n j) [.fftTwn] (AtPhase .stg (·.fstg.toNat = n + 1)) := by
  refine leads_op (p := .twn) fun s t hs he => ?_
  have hhalf := fhalf_of_atTwiddle hs
  obtain ⟨hsn, hsj⟩ := hs.here
  cases he with
  | fftTwnPosition hmore => omega
  | fftTwnStage => exact ⟨rfl, by bv_omega⟩
  | fftTwnLast _ hend => omega

theorem leads_fftTwn_last (hj : j + 1 = 2 ^ (10 - 1)) :
    Leads (AtTwiddle 10 j) [.fftTwn] (AtPhase .pki fun _ => True) := by
  refine leads_op (p := .twn) fun s t hs he => ?_
  have hhalf := fhalf_of_atTwiddle hs
  obtain ⟨hsn, hsj⟩ := hs.here
  cases he with
  | fftTwnPosition hmore => omega
  | fftTwnStage _ hmore => omega
  | fftTwnLast => exact ⟨rfl, trivial⟩

/-- A stage runs its `2^(n - 1)` positions, and the last one's `FFT.TWN` leads out of it (30_encoding.md R114). -/
theorem leads_stageOperations (hn : n ≤ 10)
    (hout : ∀ j, j + 1 = 2 ^ (n - 1) → Leads (AtTwiddle n j) [.fftTwn] Q) :
    Leads (AtPhase .stg (·.fstg.toNat = n)) (stageOperations n) Q := by
  have hstart : Leads (AtPhase .stg (·.fstg.toNat = n)) [.fftStg] (AtGroup n 0 0) :=
    leads_op (p := .stg) fun s t hs he => by
      cases he with
      | fftStg => exact ⟨rfl, hs.here, rfl, (Nat.zero_mul _).symm⟩
  exact hstart.append (Leads.replicate (P := fun j => AtGroup n j 0) (Nat.two_pow_pos _)
    (fun j hj => (leads_fftBfy hn).append (leads_fftTwn_position hj)) fun j hj => (leads_fftBfy hn).append (hout j hj))

/-- The ten stages of the transform, the last of which leads to the peak search (41_fft_peak.md R161). -/
theorem leads_stages : Leads (AtPhase .stg (·.fstg.toNat = 1))
    ((List.range 10).flatMap fun n => stageOperations (n + 1)) (AtPhase .pki fun _ => True) := by
  refine Leads.loop (P := fun n => AtPhase .stg (·.fstg.toNat = n + 1)) (by decide) (fun n hn => ?_) fun n hn => ?_
  · exact leads_stageOperations (by omega) fun j hj => leads_fftTwn_stage hj hn
  · obtain rfl : n = 9 := by omega
    exact leads_stageOperations le_rfl fun j hj => leads_fftTwn_last hj

end Transform

section Peak

theorem leads_pkInit : Leads (AtPhase .pki fun _ => True) [.pkInit] (AtPhase .pks (·.pkK.toNat = 0 + 2)) :=
  leads_op (p := .pki) fun s t _ he => by
    cases he with
    | pkInit => exact ⟨rfl, rfl⟩

/-- One scan for each bin from 2 to 511 (41_fft_peak.md R165). -/
theorem leads_pkScan :
    Leads (AtPhase .pks (·.pkK.toNat = 0 + 2)) (List.replicate 510 .pkScan) (AtPhase .pkd fun _ => True) := by
  refine Leads.replicate_op (P := fun n => AtPhase .pks (·.pkK.toNat = n + 2)) (by decide) (fun n hn => ?_)
    fun n hn => ?_
  · refine leads_op (p := .pks) fun s t hs he => ?_
    have hk := hs.here
    cases he with
    | pkScanGreater | pkScanNotGreater => exact ⟨if_neg (by omega), by bv_omega⟩
  · refine leads_op (p := .pks) fun s t hs he => ?_
    have hk := hs.here
    cases he with
    | pkScanGreater | pkScanNotGreater => exact ⟨if_pos (by omega), trivial⟩

/-- The highest frequency the search delivers is that of bin 511 (41_fft_peak.md R166). -/
theorem leads_pkDone :
    Leads (AtPhase .pkd fun _ => True) [.pkDone] (AtPhase .qst (·.domFreqE4.toNat ≤ 511 * 234375)) :=
  leads_op (p := .pkd) fun s t _ he => by
    have hle : (BitVec.ofNat 32 (binFrequency s.pkBin.toNat)).toNat ≤ 511 * 234375 := by
      rw [BitVec.toNat_ofNat]
      exact (Nat.mod_le _ _).trans (Nat.mul_le_mul_right _ (Nat.le_of_lt_succ s.pkBin.isLt))
    cases he with
    | pkDone => exact ⟨rfl, hle⟩

/-- The transform and the peak search (30_encoding.md R114). -/
theorem leads_fftRun :
    Leads (AtPhase .load (·.fi.toNat = 0)) fftRunOperations (AtPhase .qst (·.domFreqE4.toNat ≤ 511 * 234375)) :=
  (((leads_fftLoad.append leads_fftRev).append leads_stages).append
    (leads_pkInit.append leads_pkScan)).append leads_pkDone

end Peak

section Cycle

variable {k : Nat}

theorem leads_orchPoll : Leads (AtPhase .fill (·.wrIdx.toNat = 1023)) [.orchPoll] (AtPhase .load (·.fi.toNat = 0)) :=
  leads_op (p := .fill) fun s t hs he => by
    cases he with
    | orchPollRacy | orchPollSnapshot => exact ⟨rfl, rfl⟩
    | orchPollIdle hne => exact absurd hs.here hne

theorem leads_orchPub : Leads (AtPhase .pub (·.qOct.toNat = k)) [.orchPub] (AtPhase .fill (·.qOct.toNat = k)) :=
  leads_op (p := .pub) fun s t hs he => by
    cases he with
    | orchPub => exact ⟨rfl, hs.here⟩

theorem agent_of_mem_qntRunOperations (h : i ∈ qntRunOperations k) : i.agent = .fg := by
  simp only [qntRunOperations, List.mem_cons, List.mem_append, List.mem_replicate, List.not_mem_nil, or_false] at h
  obtain rfl | (⟨-, rfl⟩ | ⟨-, rfl⟩) | rfl := h <;> rfl

/-- The quantizer completes, and a bin's frequency takes at most 9 halvings (42_quantizer.md R182). -/
theorem exists_qntRun (h : AtPhase .qst (·.domFreqE4.toNat ≤ 511 * 234375) s) :
    ∃ k t, k ≤ 9 ∧ runOperations (qntRunOperations k) s = .next t ∧ AtPhase .pub (·.qOct.toNat = k) t := by
  obtain ⟨hinv, hidle, hseq, hfreq⟩ := h
  obtain ⟨k, -, t, -, habove, -, -, -, hrun, hpub, hoct, -⟩ :=
    quantizerHasItsClosedForm s hseq hidle (hinv.tables (hseq ▸ nofun))
  refine ⟨k, t, not_lt.1 fun hk => ?_, hrun, inv_of_runOperations hinv hrun,
    idle_of_runOperations (fun _ => agent_of_mem_qntRunOperations) hidle hrun, hpub, hoct⟩
  have h9 := habove 9 hk
  omega

theorem length_stageOperations (n : Nat) :
    (stageOperations n).length = 2 ^ (n - 1) * (1024 / 2 ^ n + 1) + 1 := by
  simp [stageOperations]

theorem length_fftRunOperations : fftRunOperations.length = 8712 := by
  have hstages : ((List.range 10).map fun n => (stageOperations (n + 1)).length).sum = 6153 := by
    simp only [length_stageOperations]
    decide
  rw [fftRunOperations, List.length_append, List.length_append, List.length_append, List.length_append,
    List.length_replicate, List.length_replicate, List.length_flatMap, hstages, List.length_cons,
    List.length_replicate, List.length_singleton]

theorem length_qntRunOperations (k : Nat) : (qntRunOperations k).length = k + 14 := by
  simp [qntRunOperations, Nat.add_assoc]

/-- `FG.CYCLE` is the poll, the transform and its search, the quantizer and the publication (30_encoding.md R114). -/
theorem length_fgCycleOperations (k : Nat) : (fgCycleOperations k).length = 8728 + k := by
  rw [fgCycleOperations, List.length_cons, List.length_append, List.length_append, length_fftRunOperations,
    length_qntRunOperations, List.length_singleton]
  omega

/-- Settles O29: the cycle up to the quantizer is the same for every input, and there the input says how many halvings
it needs. -/
theorem analysisCycleCompletes : Obligations.AnalysisCycleCompletes := by
  intro s hinv hseq hidle hidx
  obtain ⟨a, hfft, ha⟩ := (leads_orchPoll.append leads_fftRun) s ⟨hinv, hidle, hseq, hidx⟩
  obtain ⟨k, b, hk, hqnt, hb⟩ := exists_qntRun ha
  obtain ⟨t, hpub, -, -, hfill, hoct⟩ := leads_orchPub b hb
  refine ⟨k, t, hk, ?_, length_fgCycleOperations k, hoct, hfill⟩
  rw [fgCycleOperations, List.append_assoc, ← List.cons_append, ← List.singleton_append, runOperations_append hfft,
    runOperations_append hqnt, hpub]

end Cycle

end Sys2Proof.Machine
end

section
/-! SUPPORT. A step with no trace left: a free choice among the enabled operations (60_exceptions.md R249, log 8). -/

namespace Sys2Proof.Machine

variable {s : State}

/-- With no trace left the next operation is the freely chosen one, and the choice uses up a free value. -/
theorem nextOperation_of_trace_nil (h : s.trace = []) :
    nextOperation s = .ok (s.freeOperation, { s with draws := s.draws + 1 }) := by
  rw [nextOperation, h]

/-- Settles O6: the free choice picks an enabled operation, and a step executes the next operation. -/
theorem stepWithoutTraceRunsAnEnabledOperation : Obligations.StepWithoutTraceRunsAnEnabledOperation :=
  fun s h => ⟨s.freeOperation, freeOperation_enabled, step_of_nextOperation_ok (nextOperation_of_trace_nil h)⟩

end Sys2Proof.Machine
end

section
/-! SUPPORT. The two handlers share no state but what neither writes (60_exceptions.md R248): an operation of one
completes alike whatever the other has written, so two of them commute, and every interleaving can be sorted. -/

namespace Sys2Proof.Machine

variable {s t u : State} {i j : Instr} {g : Agent}

section Ownership

/-- The state with what the operations of handler `g` write taken from `u` (10_state.md R20, 20_memory.md R70).
`STATUS` counts as the acquisition's: `ACQ.WAIT` is the one handler operation that raises a fault (60_exceptions.md
R240). For an agent that is no handler nothing is taken. -/
def State.withOwned (s : State) (g : Agent) (u : State) : State :=
  match g with
  | .acq => { s with
      acqPend := u.acqPend, acqAct := u.acqAct, acqWcnt := u.acqWcnt, adcEoc := u.adcEoc, wrIdx := u.wrIdx,
      samp := u.samp, status := u.status }
  | .syn => { s with
      synPend := u.synPend, synAct := u.synAct, synPh := u.synPh, synAcc := u.synAcc, osc := u.osc,
      dacOut := u.dacOut, dacStream := u.dacStream, valued := u.valued }
  | .env | .fg => s

/-- Taking a handler's fields away and putting them back. -/
theorem withOwned_restore (s u : State) (g : Agent) : (s.withOwned g u).withOwned g s = s := by
  cases g <;> rfl

/-- What is taken from a state is the same after another agent's fields in it were replaced. -/
theorem withOwned_withOwned_of_ne {g g' : Agent} (hne : g ≠ g') (s t u : State) :
    s.withOwned g (t.withOwned g' u) = s.withOwned g t := by
  cases g with
  | env | fg => rfl
  | acq =>
    cases g' with
    | acq => exact absurd rfl hne
    | _ => rfl
  | syn =>
    cases g' with
    | syn => exact absurd rfl hne
    | _ => rfl

/-- A handler's operation writes nothing but what its handler owns. -/
theorem Effect.eq_withOwned (he : Effect i s t) (hi : i.agent = .acq ∨ i.agent = .syn) :
    t = s.withOwned i.agent t := by
  cases he with
  | acqEnter | acqWaitExpired | acqWaitCounted | acqStore | synEnter | synStep | synAdv | synMix | synOut => rfl
  | _ => simp [Instr.agent] at hi

/-- No handler writes the wavetable (20_memory.md R85). -/
theorem readWave_withOwned (s u : State) (g : Agent) (k : Nat) : (s.withOwned g u).readWave k = s.readWave k := by
  cases g <;> rfl

/-- The mix of given channels reads the wavetable and nothing else of the state (43_synthesis.md R206). -/
theorem mixChannels_withOwned (s u : State) (g : Agent) (l : List Oscillator) :
    (s.withOwned g u).mixChannels l = s.mixChannels l := by
  induction l with
  | nil => rfl
  | cons o l ih => simp only [State.mixChannels, readWave_withOwned, ih]

end Ownership

section Commutation

/-- An acquisition operation completes alike whatever the synthesis handler has written. -/
theorem exec_withOwned_syn (hi : i.agent = .acq) (hx : exec i s = .next t) (u : State) :
    exec i (s.withOwned .syn u) = .next (t.withOwned .syn u) := by
  have hen := exec_next_enabled hx
  cases exec_effect hx with
  | acqEnter => exact exec_acqEnter (enabled_acqEnter_iff.1 hen)
  | acqWaitExpired hexp => exact exec_acqWait_expired (enabled_acqWait_iff.1 hen) hexp
  | acqWaitCounted hexp => exact exec_acqWait_counted (enabled_acqWait_iff.1 hen) hexp
  | acqStore => exact exec_acqStore (enabled_acqStore_iff.1 hen)
  | _ => cases hi

/-- A synthesis operation completes alike whatever the acquisition handler has written. -/
theorem exec_withOwned_acq (hi : i.agent = .syn) (hx : exec i s = .next t) (u : State) :
    exec i (s.withOwned .acq u) = .next (t.withOwned .acq u) := by
  have hen := exec_next_enabled hx
  cases exec_effect hx with
  | synEnter => exact exec_synEnter (enabled_synEnter_iff.1 hen)
  | synStep => exact exec_synStep (enabled_synStep_iff.1 hen)
  | synAdv => exact exec_synAdv (enabled_synAdv_iff.1 hen)
  | synMix hsum =>
    exact exec_synMix (s := s.withOwned .acq u) (enabled_synMix_iff.1 hen) ((mixChannels_withOwned ..).trans hsum)
  | synOut hcode =>
    subst hcode
    exact exec_synOut (enabled_synOut_iff.1 hen)
  | _ => cases hi

/-- A handler's operation completes alike whatever another agent's handler has written. -/
theorem exec_withOwned (hi : i.agent = .acq ∨ i.agent = .syn) (hne : i.agent ≠ g) (hx : exec i s = .next t)
    (u : State) : exec i (s.withOwned g u) = .next (t.withOwned g u) := by
  cases g with
  | acq => exact exec_withOwned_acq (hi.resolve_left hne) hx u
  | syn => exact exec_withOwned_syn (hi.resolve_right hne) hx u
  | env | fg => exact hx

/-- Two operations of different handlers can be exchanged: the second completes without the first's writes, and the
first after the second's. -/
theorem exec_swap (hi : i.agent = .acq ∨ i.agent = .syn) (hj : j.agent = .acq ∨ j.agent = .syn)
    (hne : i.agent ≠ j.agent) (hx : exec i s = .next u) (hy : exec j u = .next t) :
    ∃ v, exec j s = .next v ∧ exec i v = .next t := by
  have hu := (exec_effect hx).eq_withOwned hi
  have ht := (exec_effect hy).eq_withOwned hj
  have hfirst : exec j s = .next (t.withOwned i.agent s) := by
    have hback := exec_withOwned hj hne.symm hy s
    rwa [hu, withOwned_restore] at hback
  refine ⟨t.withOwned i.agent s, hfirst, ?_⟩
  have hv := (exec_effect hfirst).eq_withOwned hj
  calc exec i (t.withOwned i.agent s)
      = exec i (s.withOwned j.agent (t.withOwned i.agent s)) := congrArg _ hv
    _ = .next (u.withOwned j.agent (t.withOwned i.agent s)) := exec_withOwned hi hne hx _
    _ = .next t := by rw [withOwned_withOwned_of_ne hne.symm, ← ht]

end Commutation

section Interleaving

/-- From every state the two sequences complete in the same states. -/
def SameCompletions (xs ys : List Instr) : Prop :=
  ∀ s t, runOperations xs s = .next t ↔ runOperations ys s = .next t

variable {xs ys zs : List Instr}

theorem SameCompletions.refl (xs : List Instr) : SameCompletions xs xs := fun _ _ => Iff.rfl

theorem SameCompletions.trans (hxy : SameCompletions xs ys) (hyz : SameCompletions ys zs) : SameCompletions xs zs :=
  fun s t => (hxy s t).trans (hyz s t)

/-- A run completes exactly where its first operation does and the rest completes from there. -/
theorem runOperations_cons_next_iff :
    runOperations (i :: xs) s = .next t ↔ ∃ u, exec i s = .next u ∧ runOperations xs u = .next t :=
  ⟨runOperations_cons_next, fun ⟨_, hx, hrest⟩ => (runOperations_cons hx).trans hrest⟩

theorem SameCompletions.cons (h : SameCompletions xs ys) (i : Instr) : SameCompletions (i :: xs) (i :: ys) := by
  intro s t
  simp only [runOperations_cons_next_iff, h _ t]

theorem runOperations_swap (hi : i.agent = .acq ∨ i.agent = .syn) (hj : j.agent = .acq ∨ j.agent = .syn)
    (hne : i.agent ≠ j.agent) (hrun : runOperations (i :: j :: xs) s = .next t) :
    runOperations (j :: i :: xs) s = .next t := by
  obtain ⟨u, hx, hrun⟩ := runOperations_cons_next hrun
  obtain ⟨w, hy, hrest⟩ := runOperations_cons_next hrun
  obtain ⟨v, hy', hx'⟩ := exec_swap hi hj hne hx hy
  rwa [runOperations_cons hy', runOperations_cons hx']

/-- A synthesis operation and an acquisition operation next to each other commute. -/
theorem sameCompletions_swap (hi : i.agent = .syn) (hj : j.agent = .acq) (xs : List Instr) :
    SameCompletions (i :: j :: xs) (j :: i :: xs) := fun _ _ =>
  have hne : i.agent ≠ j.agent := by simp [hi, hj]
  ⟨runOperations_swap (.inr hi) (.inl hj) hne, runOperations_swap (.inl hj) (.inr hi) hne.symm⟩

/-- A synthesis operation moves behind any number of acquisition operations. -/
theorem sameCompletions_move (hi : i.agent = .syn) (hxs : ∀ j ∈ xs, j.agent = .acq) (ys : List Instr) :
    SameCompletions (i :: (xs ++ ys)) (xs ++ i :: ys) := by
  induction xs with
  | nil => exact .refl _
  | cons j xs ih =>
    obtain ⟨hj, hxs⟩ := List.forall_mem_cons.1 hxs
    exact (sameCompletions_swap hi hj _).trans ((ih hxs).cons j)

/-- An interleaving of the two handlers' operations can be sorted, each handler's own order kept. -/
theorem sameCompletions_sorted {ops : List Instr} (hops : ∀ i ∈ ops, i.agent = .acq ∨ i.agent = .syn) :
    SameCompletions ops (ops.filter (fun i => decide (i.agent = .acq)) ++
      ops.filter (fun i => decide (i.agent = .syn))) := by
  induction ops with
  | nil => exact .refl _
  | cons i ops ih =>
    obtain ⟨hi, hops⟩ := List.forall_mem_cons.1 hops
    have hsorted := (ih hops).cons i
    rcases hi with hi | hi
    · simpa [hi] using hsorted
    · have hacq : ∀ j ∈ ops.filter (fun j => decide (j.agent = .acq)), j.agent = .acq :=
        fun j hj => of_decide_eq_true (List.mem_filter.1 hj).2
      simpa [hi] using hsorted.trans (sameCompletions_move hi hacq _)

/-- Settles O55: each synthesis operation moves behind the acquisition operations after it. -/
theorem handlersCommute : Obligations.HandlersCommute :=
  fun _ s t hops => sameCompletions_sorted hops s t

end Interleaving

end Sys2Proof.Machine
end

section
/-! SUPPORT. What is enabled before `ORCH.INIT`: the machine a reset leaves runs nothing else
(70_reset_and_hazards.md R281, R290). -/

namespace Sys2Proof.Machine

variable {s : State} {i : Instr}

/-- Under the invariant exactly `ORCH.INIT`, `ENV.RESET` and `ENV.EOC v` with an admitted sample are enabled in
`BOOT`. -/
theorem State.Inv.enabled_boot_iff (h : s.Inv) (hboot : s.seq = .boot) :
    enabled i s = true ↔
      i = .orchInit ∨ i = .envReset ∨ ∃ v : BitVec 16, v.toNat < 2 ^ s.cfg.val.adcBits ∧ i = .envEoc v := by
  constructor
  · intro hen
    obtain rfl | rfl | ⟨v, rfl⟩ := h.enabled_boot hboot hen
    · exact .inr (.inl rfl)
    · exact .inl rfl
    · exact .inr (.inr ⟨v, enabled_envEoc_iff.1 hen, rfl⟩)
  · rintro (rfl | rfl | ⟨v, hv, rfl⟩)
    · exact foregroundEnabled_iff.2 ⟨hboot, h.bootIdle hboot⟩
    · rfl
    · exact enabled_envEoc_iff.2 hv

/-- Settles O9: a reset leaves a state of the invariant in `BOOT`, with the configuration it started from. -/
theorem resetStateEnablesOnlyBoot : Obligations.ResetStateEnablesOnlyBoot := by
  intro s t hx i
  cases exec_effect hx
  exact ((inv_resetWith s.cfg).set_trace_draws s.trace (s.draws + 1)).enabled_boot_iff rfl

end Sys2Proof.Machine
end
